-- ==== Sys2Proof/Word.lean ====
section
/-! DEFINITION. The words of the block: event words, µop codes, transition codes and the bit fields of its
registers (spec/30_encoding.md R80 to R86, spec/10_state.md R40). -/

namespace Sys2Proof

/-- An event word: `[7:4] EOP`, `[3:0] OPD` (R83). -/
abbrev EventWord := BitVec 8

/-- A µop code, an element of the micro-program ROM (R86). -/
abbrev UopCode := BitVec 4

/-- A transition code `{PREV, CUR}`, an index of the movement table (R80). -/
abbrev TransCode := BitVec 4

/-- A phase pair `{A, B}`: phase A in bit 1, phase B in bit 0 (R20). -/
abbrev PhasePair := BitVec 2

/-- The two bits of a movement value as a register holds it (R82). -/
abbrev MovementCode := BitVec 2

/-- A micro-program ROM address, the width of `UPC` (R37). -/
abbrev Uaddr := BitVec 4

end Sys2Proof
end

