-- ==== Sys2Proof/Config.lean ====
section
/-! DEFINITION. What the spec leaves to the implementation (spec/00_scope.md R8) and the free values of the model:
the parameters of a machine, and opaque constants of which nothing is known. -/

namespace Sys2Proof

/-- A movement value, one of −1, 0, +1 (spec/00_scope.md R9, R13). -/
inductive Movement where
  | minus
  | zero
  | plus
  deriving DecidableEq, Repr, Inhabited

/-- The parameters as they are written down, before the check of R10 (`RawParams.wellFormed`). -/
structure RawParams where
  maxCount : Int
  loadValue : Int
  restLevel : Bool
  initPrevMovement : Movement
  deriving DecidableEq, Repr

/-- The parameters of a machine that the rules read (R8), carrying the well-formedness of R10: a configuration that
R10 refuses is no value of this type, so that the model has no run for it. `P_TICK_TIME` and `P_PULSE_WIDTH_TIME`
are read by no rule (R8); the formula that uses them is `Machine.loadFormula`. -/
structure Params where
  /-- `P_MAX_COUNT` -/
  maxCount : Nat := 1
  /-- `P_LOAD_VALUE` -/
  loadValue : Nat := 0
  /-- `P_REST_LEVEL` -/
  restLevel : Bool := false
  /-- `P_INIT_PREV_MOVEMENT` -/
  initPrevMovement : Movement := .zero
  maxCount_pos : 1 ≤ maxCount := by decide
  loadValue_le : loadValue ≤ maxCount := by decide
  deriving DecidableEq, Repr, Inhabited

/-- The open parameters of R8: nothing is known of them but R10's ranges, which their type carries. Log 3. -/
opaque Config.openParams : Params

/-- The configuration of `State.reset`: every OPEN parameter is open, and `P_INIT_PREV_MOVEMENT` has its value in
this spec, 0 (R8, D11). DESIGN CHOICE, log 4. -/
def Config.machine : Params := { Config.openParams with initPrevMovement := .zero }

/-- The draw of `TCNT` at `RESET`, before it is brought into `0..P_MAX_COUNT` (R45, R240). Free value, log 10. -/
opaque Config.drawTcnt : Nat → Nat

/-- The draw of `TOV` at `RESET` (R45, R240). Free value, log 10. -/
opaque Config.drawTov : Nat → Bool

/-- The draw of `PEND_A` at `RESET` (R45, R240). Free value, log 10. -/
opaque Config.drawPendA : Nat → Bool

/-- The draw of `PEND_B` at `RESET` (R45, R240). Free value, log 10. -/
opaque Config.drawPendB : Nat → Bool

/-- What `UPC` holds once no handler runs (R37, R185: unspecified). Free value, log 11. -/
opaque Config.freeUpc : Nat → Uaddr

end Sys2Proof
end

