-- ==== Sys2Proof/Syntax.lean ====
section
/-! DEFINITION. The abstract syntax: one constructor of `Instr` per row of spec/opcode_table.json, in the table's
order: 6 events (format EV8), 10 µops (UOP4), 16 transition codes (TC4). -/

namespace Sys2Proof

/-- The operand of `TAKE_PHASE`: which phase-change source is taken (spec/60_exceptions.md R204). -/
inductive PhaseSource where
  | a
  | b
  deriving DecidableEq, Repr

/-- The three formats of the opcode table (spec/30_encoding.md R93). -/
inductive Format where
  | ev8
  | uop4
  | tc4
  deriving DecidableEq, Repr

/-- A row of the opcode table with its operands. -/
inductive Instr where
  /-- `RESET`: spec/70_reset_and_hazards.md R240 -/
  | reset
  /-- `INPUT a b`: spec/42_sequencing.md R186 -/
  | input (a b : Bool)
  /-- `TICK`: spec/41_shaper.md R157 -/
  | tick
  /-- `TAKE_PHASE s`: spec/60_exceptions.md R204 -/
  | takePhase (source : PhaseSource)
  /-- `TAKE_TIMER`: spec/60_exceptions.md R205 -/
  | takeTimer
  /-- `STEP`: spec/42_sequencing.md R180 -/
  | step
  /-- `SAMPLE`: spec/40_decoder.md R101 -/
  | sample
  /-- `LOOKUP`: spec/40_decoder.md R102 -/
  | lookup
  /-- `VALIDATE`: spec/40_decoder.md R103 -/
  | validate
  /-- `CLRFLAG`: spec/41_shaper.md R151 -/
  | clrflag
  /-- `LOAD`: spec/41_shaper.md R152 -/
  | load
  /-- `TOGGLE`: spec/41_shaper.md R153 -/
  | toggle
  /-- `ARM`: spec/41_shaper.md R154 -/
  | arm
  /-- `UPDATE`: spec/40_decoder.md R104 -/
  | update
  /-- `RETI`: spec/42_sequencing.md R185 -/
  | reti
  /-- `DISARM`: spec/41_shaper.md R155 -/
  | disarm
  /-- `TC_00_00`: spec/40_decoder.md R110 -/
  | tc_00_00
  /-- `TC_00_01`: spec/40_decoder.md R111 -/
  | tc_00_01
  /-- `TC_00_10`: spec/40_decoder.md R112 -/
  | tc_00_10
  /-- `TC_00_11`: spec/40_decoder.md R113 -/
  | tc_00_11
  /-- `TC_01_00`: spec/40_decoder.md R114 -/
  | tc_01_00
  /-- `TC_01_01`: spec/40_decoder.md R115 -/
  | tc_01_01
  /-- `TC_01_10`: spec/40_decoder.md R116 -/
  | tc_01_10
  /-- `TC_01_11`: spec/40_decoder.md R117 -/
  | tc_01_11
  /-- `TC_10_00`: spec/40_decoder.md R118 -/
  | tc_10_00
  /-- `TC_10_01`: spec/40_decoder.md R119 -/
  | tc_10_01
  /-- `TC_10_10`: spec/40_decoder.md R120 -/
  | tc_10_10
  /-- `TC_10_11`: spec/40_decoder.md R121 -/
  | tc_10_11
  /-- `TC_11_00`: spec/40_decoder.md R122 -/
  | tc_11_00
  /-- `TC_11_01`: spec/40_decoder.md R123 -/
  | tc_11_01
  /-- `TC_11_10`: spec/40_decoder.md R124 -/
  | tc_11_10
  /-- `TC_11_11`: spec/40_decoder.md R125 -/
  | tc_11_11
  deriving DecidableEq, Repr

/-- The ten µops, what a µROM element selects (spec/30_encoding.md R86). -/
inductive Uop where
  | sample
  | lookup
  | validate
  | clrflag
  | load
  | toggle
  | arm
  | update
  | reti
  | disarm
  deriving DecidableEq, Repr

/-- The opcode-table row of a µop. -/
def Uop.toInstr : Uop → Instr
  | .sample => .sample
  | .lookup => .lookup
  | .validate => .validate
  | .clrflag => .clrflag
  | .load => .load
  | .toggle => .toggle
  | .arm => .arm
  | .update => .update
  | .reti => .reti
  | .disarm => .disarm

end Sys2Proof
end

