-- ==== Sys2Proof/WellFormed.lean ====
section
/-! DEFINITION. Well-formedness: of a configuration (spec/00_scope.md R10) and of an instruction. -/

namespace Sys2Proof

/-- R10: refused are `P_MAX_COUNT < 1`, `P_LOAD_VALUE < 0` and `P_LOAD_VALUE > P_MAX_COUNT`. -/
def RawParams.wellFormed (r : RawParams) : Bool :=
  !decide (r.maxCount < 1) && !decide (r.loadValue < 0) && !decide (r.loadValue > r.maxCount)

/-- The machine's parameters from those written down; none where R10 refuses the configuration. -/
def Params.ofRaw (r : RawParams) : Option Params :=
  if h : r.wellFormed = true then
    some
      { maxCount := r.maxCount.toNat
        loadValue := r.loadValue.toNat
        restLevel := r.restLevel
        initPrevMovement := r.initPrevMovement
        maxCount_pos := by simp [RawParams.wellFormed] at h; omega
        loadValue_le := by simp [RawParams.wellFormed] at h; omega }
  else none

/-- Whether an instruction is well formed. The operands are typed (the two levels of `INPUT` are Bools, the source of
`TAKE_PHASE` is one of two names), so every value of `Instr` is well formed; the operand bits that R85 requires to be
0 are checked where words are read, in `decodeEvent`. -/
def Instr.wellFormed : Instr → Bool
  | .reset => true
  | .input _ _ => true
  | .tick => true
  | .takePhase _ => true
  | .takeTimer => true
  | .step => true
  | .sample => true
  | .lookup => true
  | .validate => true
  | .clrflag => true
  | .load => true
  | .toggle => true
  | .arm => true
  | .update => true
  | .reti => true
  | .disarm => true
  | .tc_00_00 => true
  | .tc_00_01 => true
  | .tc_00_10 => true
  | .tc_00_11 => true
  | .tc_01_00 => true
  | .tc_01_01 => true
  | .tc_01_10 => true
  | .tc_01_11 => true
  | .tc_10_00 => true
  | .tc_10_01 => true
  | .tc_10_10 => true
  | .tc_10_11 => true
  | .tc_11_00 => true
  | .tc_11_01 => true
  | .tc_11_10 => true
  | .tc_11_11 => true

end Sys2Proof
end

