-- ==== Sys2Proof/Decode.lean ====
section
/-! DEFINITION. Encodings: the three decode tables of spec/30_encoding.md (event words R83 to R85, µop codes R86,
transition codes R80), each total, reserved words rejected by name (R88); the bit encoding of movements (R82); and the
encoder. -/

namespace Sys2Proof

/-! ### Bit fields -/

/-- The phase pair `{A, B}` (R13, R20). -/
def phasePair (a b : Bool) : PhasePair := BitVec.ofBool a ++ BitVec.ofBool b

/-- `CODE = {PREV, CUR}` (R80). -/
def transCode (prev cur : PhasePair) : TransCode := prev ++ cur

/-- The previous pair of a transition code, bits [3:2] (R80). -/
def codePrev (c : TransCode) : PhasePair := c.extractLsb' 2 2

/-- The current pair of a transition code, bits [1:0] (R80). -/
def codeCur (c : TransCode) : PhasePair := c.extractLsb' 0 2

/-- The two bits of a movement: +1 = 0b01, 0 = 0b00, −1 = 0b11 (R82). -/
def Movement.code : Movement → MovementCode
  | .plus => 0b01#2
  | .zero => 0b00#2
  | .minus => 0b11#2

/-- The movement that two bits stand for; none for the pattern 0b10, which no register ever holds (R82). -/
def Movement.ofCode (c : MovementCode) : Option Movement :=
  if c = 0b01#2 then some .plus
  else if c = 0b00#2 then some .zero
  else if c = 0b11#2 then some .minus
  else none

/-- The integer that a movement is (R13: movement values are compared as integers). -/
def Movement.toInt : Movement → Int
  | .plus => 1
  | .zero => 0
  | .minus => -1

/-! ### Decoding -/

/-- A word of one of the three formats (R93): the format says which decode table reads it. -/
inductive CodeWord where
  | ev8 (w : EventWord)
  | uop4 (w : UopCode)
  | tc4 (w : TransCode)
  deriving DecidableEq, Repr

/-- Why a word decodes to nothing (R88). -/
inductive DecodeError where
  /-- an event word with a reserved `EOP` or an operand bit set that must be 0: the verdict `invalid` -/
  | reservedEvent
  /-- a µop code 0xA to 0xF -/
  | reservedUop
  deriving DecidableEq, Repr

/-- The event decoder (R84, R85, R89): the event opcode in bits [7:4], its operand in bits [3:0]. -/
def decodeEvent (w : EventWord) : Except DecodeError Instr :=
  let eop := w.extractLsb' 4 4
  let opd := w.extractLsb' 0 4
  if eop = 0x0#4 ∧ opd = 0x0#4 then .ok .reset
  else if eop = 0x1#4 ∧ opd.extractLsb' 2 2 = 0b00#2 then .ok (.input (opd.getLsbD 1) (opd.getLsbD 0))
  else if eop = 0x2#4 ∧ opd = 0x0#4 then .ok .tick
  else if eop = 0x3#4 ∧ opd.extractLsb' 1 3 = 0b000#3 then
    .ok (.takePhase (bif opd.getLsbD 0 then .b else .a))
  else if eop = 0x4#4 ∧ opd = 0x0#4 then .ok .takeTimer
  else if eop = 0x5#4 ∧ opd = 0x0#4 then .ok .step
  else .error .reservedEvent

/-- The µop decoder (R86); the codes 0xA to 0xF are reserved (R88). -/
def decodeUop (c : UopCode) : Except DecodeError Uop :=
  if c = 0x0#4 then .ok .sample
  else if c = 0x1#4 then .ok .lookup
  else if c = 0x2#4 then .ok .validate
  else if c = 0x3#4 then .ok .clrflag
  else if c = 0x4#4 then .ok .load
  else if c = 0x5#4 then .ok .toggle
  else if c = 0x6#4 then .ok .arm
  else if c = 0x7#4 then .ok .update
  else if c = 0x8#4 then .ok .reti
  else if c = 0x9#4 then .ok .disarm
  else .error .reservedUop

/-- The movement-table row of a transition code: every code has one (R81, R93). -/
def decodeTransCode (c : TransCode) : Instr :=
  match c.getLsbD 3, c.getLsbD 2, c.getLsbD 1, c.getLsbD 0 with
  | false, false, false, false => .tc_00_00
  | false, false, false, true => .tc_00_01
  | false, false, true, false => .tc_00_10
  | false, false, true, true => .tc_00_11
  | false, true, false, false => .tc_01_00
  | false, true, false, true => .tc_01_01
  | false, true, true, false => .tc_01_10
  | false, true, true, true => .tc_01_11
  | true, false, false, false => .tc_10_00
  | true, false, false, true => .tc_10_01
  | true, false, true, false => .tc_10_10
  | true, false, true, true => .tc_10_11
  | true, true, false, false => .tc_11_00
  | true, true, false, true => .tc_11_01
  | true, true, true, false => .tc_11_10
  | true, true, true, true => .tc_11_11

/-- The decoder of the block: a word of each format to its opcode-table row (R93), total, rejecting by name. -/
def decode : CodeWord → Except DecodeError Instr
  | .ev8 w => decodeEvent w
  | .uop4 w => (decodeUop w).map Uop.toInstr
  | .tc4 w => .ok (decodeTransCode w)

/-! ### Encoding -/

/-- The code of a µop (R86). -/
def Uop.code : Uop → UopCode
  | .sample => 0x0#4
  | .lookup => 0x1#4
  | .validate => 0x2#4
  | .clrflag => 0x3#4
  | .load => 0x4#4
  | .toggle => 0x5#4
  | .arm => 0x6#4
  | .update => 0x7#4
  | .reti => 0x8#4
  | .disarm => 0x9#4

/-- The word of an instruction, in its format (R80, R84 to R86). -/
def encode : Instr → CodeWord
  | .reset => .ev8 0x00#8
  | .input a b => .ev8 (0b000100#6 ++ phasePair a b)
  | .tick => .ev8 0x20#8
  | .takePhase .a => .ev8 0x30#8
  | .takePhase .b => .ev8 0x31#8
  | .takeTimer => .ev8 0x40#8
  | .step => .ev8 0x50#8
  | .sample => .uop4 Uop.sample.code
  | .lookup => .uop4 Uop.lookup.code
  | .validate => .uop4 Uop.validate.code
  | .clrflag => .uop4 Uop.clrflag.code
  | .load => .uop4 Uop.load.code
  | .toggle => .uop4 Uop.toggle.code
  | .arm => .uop4 Uop.arm.code
  | .update => .uop4 Uop.update.code
  | .reti => .uop4 Uop.reti.code
  | .disarm => .uop4 Uop.disarm.code
  | .tc_00_00 => .tc4 (transCode 0b00#2 0b00#2)
  | .tc_00_01 => .tc4 (transCode 0b00#2 0b01#2)
  | .tc_00_10 => .tc4 (transCode 0b00#2 0b10#2)
  | .tc_00_11 => .tc4 (transCode 0b00#2 0b11#2)
  | .tc_01_00 => .tc4 (transCode 0b01#2 0b00#2)
  | .tc_01_01 => .tc4 (transCode 0b01#2 0b01#2)
  | .tc_01_10 => .tc4 (transCode 0b01#2 0b10#2)
  | .tc_01_11 => .tc4 (transCode 0b01#2 0b11#2)
  | .tc_10_00 => .tc4 (transCode 0b10#2 0b00#2)
  | .tc_10_01 => .tc4 (transCode 0b10#2 0b01#2)
  | .tc_10_10 => .tc4 (transCode 0b10#2 0b10#2)
  | .tc_10_11 => .tc4 (transCode 0b10#2 0b11#2)
  | .tc_11_00 => .tc4 (transCode 0b11#2 0b00#2)
  | .tc_11_01 => .tc4 (transCode 0b11#2 0b01#2)
  | .tc_11_10 => .tc4 (transCode 0b11#2 0b10#2)
  | .tc_11_11 => .tc4 (transCode 0b11#2 0b11#2)

/-! ### The opcode table's rows -/

/-- One row of spec/opcode_table.json: its format, mask and match. -/
structure Row where
  format : Format
  mask : Nat
  value : Nat
  deriving DecidableEq, Repr

/-- The row of each constructor (spec/opcode_table.json). -/
def Instr.row : Instr → Row
  | .reset => ⟨.ev8, 0xFF, 0x00⟩
  | .input _ _ => ⟨.ev8, 0xFC, 0x10⟩
  | .tick => ⟨.ev8, 0xFF, 0x20⟩
  | .takePhase _ => ⟨.ev8, 0xFE, 0x30⟩
  | .takeTimer => ⟨.ev8, 0xFF, 0x40⟩
  | .step => ⟨.ev8, 0xFF, 0x50⟩
  | .sample => ⟨.uop4, 0xF, 0x0⟩
  | .lookup => ⟨.uop4, 0xF, 0x1⟩
  | .validate => ⟨.uop4, 0xF, 0x2⟩
  | .clrflag => ⟨.uop4, 0xF, 0x3⟩
  | .load => ⟨.uop4, 0xF, 0x4⟩
  | .toggle => ⟨.uop4, 0xF, 0x5⟩
  | .arm => ⟨.uop4, 0xF, 0x6⟩
  | .update => ⟨.uop4, 0xF, 0x7⟩
  | .reti => ⟨.uop4, 0xF, 0x8⟩
  | .disarm => ⟨.uop4, 0xF, 0x9⟩
  | .tc_00_00 => ⟨.tc4, 0xF, 0x0⟩
  | .tc_00_01 => ⟨.tc4, 0xF, 0x1⟩
  | .tc_00_10 => ⟨.tc4, 0xF, 0x2⟩
  | .tc_00_11 => ⟨.tc4, 0xF, 0x3⟩
  | .tc_01_00 => ⟨.tc4, 0xF, 0x4⟩
  | .tc_01_01 => ⟨.tc4, 0xF, 0x5⟩
  | .tc_01_10 => ⟨.tc4, 0xF, 0x6⟩
  | .tc_01_11 => ⟨.tc4, 0xF, 0x7⟩
  | .tc_10_00 => ⟨.tc4, 0xF, 0x8⟩
  | .tc_10_01 => ⟨.tc4, 0xF, 0x9⟩
  | .tc_10_10 => ⟨.tc4, 0xF, 0xA⟩
  | .tc_10_11 => ⟨.tc4, 0xF, 0xB⟩
  | .tc_11_00 => ⟨.tc4, 0xF, 0xC⟩
  | .tc_11_01 => ⟨.tc4, 0xF, 0xD⟩
  | .tc_11_10 => ⟨.tc4, 0xF, 0xE⟩
  | .tc_11_11 => ⟨.tc4, 0xF, 0xF⟩

/-- The format of a word. -/
def CodeWord.format : CodeWord → Format
  | .ev8 _ => .ev8
  | .uop4 _ => .uop4
  | .tc4 _ => .tc4

/-- The bits of a word as the opcode table numbers them. -/
def CodeWord.bits : CodeWord → Nat
  | .ev8 w => w.toNat
  | .uop4 w => w.toNat
  | .tc4 w => w.toNat

/-- Whether a word is one of a row: the row's format, and its match under its mask. -/
def Row.covers (r : Row) (w : CodeWord) : Bool :=
  decide (w.format = r.format) && decide (w.bits &&& r.mask = r.value)

/-! ### The host's question: a row's word by its number of bits -/

/-- A four-bit row's word: a µop code where there is one, and a transition code otherwise. Log 16. -/
def decodeNibble (c : BitVec 4) : Instr :=
  match decodeUop c with
  | .ok u => u.toInstr
  | .error _ => decodeTransCode c

/-- The row that a table word of `nbits` bits stands for. The table gives its three formats overlapping words and
`nbits` is all that tells them apart, in whole bytes at that: a word of more than four bits is read as an event word,
and as a four-bit word only if it spells no event and fits in four bits. `step` never reads words this way: it reads
the event list with `decodeEvent` and the µROM with `decodeUop`. Log 16. -/
def decodeTableWord (nbits w : Nat) : Option Instr :=
  if nbits ≤ 4 then
    if w < 16 then some (decodeNibble (BitVec.ofNat 4 w)) else none
  else if w < 256 then
    match decodeEvent (BitVec.ofNat 8 w) with
    | .ok i => some i
    | .error _ => if w < 16 then some (decodeNibble (BitVec.ofNat 4 w)) else none
  else none

end Sys2Proof
end

