-- ==== Sys2Proof/Machine/State.lean ====
section
/-! DEFINITION. The state of the block as plain data (spec/10_state.md), the reasons a step stops, and the state right
after reset (R45). -/

namespace Sys2Proof.Machine

/-- The block's state. Every register of spec/10_state.md R40 under its own name, then four fields of the model's
own. A scratch register is an Option because "unwritten" is the spec's own state of it (R22, D33). -/
structure State where
  /-- `PREV`, the pair of the previous transition (R20) -/
  prev : PhasePair
  /-- `PMOV`, the previous movement's code (R21, R82) -/
  pmov : MovementCode
  /-- `CUR`, the pair sampled in this run (R22) -/
  cur : Option PhasePair
  /-- `CODE`, the transition code of this run (R22, R80) -/
  code : Option TransCode
  /-- `MOV`, the movement's code of this run (R22, R82) -/
  mov : Option MovementCode
  /-- `VALID`, the outcome of the validation rule (R22) -/
  valid : Option Bool
  /-- `PIN`, the output level (R30) -/
  pin : Bool
  /-- `TIE`, the expiry-interrupt enable (R31) -/
  tie : Bool
  /-- `TOV`, the expiry flag (R32) -/
  tov : Bool
  /-- `TCNT`, the timer count, in `0..P_MAX_COUNT` (R33) -/
  tcnt : Nat
  /-- `PEND_A` (R35) -/
  pendA : Bool
  /-- `PEND_B` (R35) -/
  pendB : Bool
  /-- `BUSY`, a handler runs (R36) -/
  busy : Bool
  /-- `UPC`, the micro-program counter (R37) -/
  upc : Uaddr
  /-- `IN_A`, the level of phase A (R38) -/
  inA : Bool
  /-- `IN_B`, the level of phase B (R38) -/
  inB : Bool
  /-- model's own: the parameters of R8, which no event changes (log 3) -/
  cfg : Params
  /-- model's own: whether `RESET` has been executed (R90, R241; log 2) -/
  started : Bool
  /-- model's own: the event words still to come, the scheduler's choice (R187; log 1) -/
  events : List EventWord
  /-- model's own: the argument of the free values (log 10) -/
  drawIndex : Nat
  deriving DecidableEq, Repr

/-- The fault reasons of spec/42_sequencing.md R188. All are safe: the spec says that no run reaches them, and a
faulted state is never final. -/
inductive Fault where
  /-- a µop or a table entry reads an unwritten scratch register (R22). Raised by LOOKUP, VALIDATE, UPDATE, the
  table entries, and STEP at those. Safe. -/
  | unwrittenScratch
  /-- a fetch at an address above 11 (R37, R69). Raised by STEP. Safe. -/
  | upcOutOfRom
  /-- the µROM returned a reserved code (R88). Raised by STEP; no state reaches it, the ROM being fixed. Safe. -/
  | reservedUop
  /-- MOV or PMOV read as 0b10 (R82). Raised by VALIDATE, UPDATE and STEP at those. Safe. -/
  | badMovement
  deriving DecidableEq, Repr

/-- The refusals: the model has no step for the event (spec/00_scope.md R13, 42_sequencing.md R188). All are safe: an
event that is not enabled does not occur. -/
inductive Refusal where
  /-- an instruction without a meaning; no arm of `exec` answers it. Safe. -/
  | notModelled (mnemonic : String)
  /-- the next event word spells no event (R88). Raised by the step's fetch. Safe. -/
  | reservedEvent
  /-- no event has been chosen: the list of events is empty. No run ends here; it goes on with the next event that is
  placed (R189; log 1). Raised by the step's fetch. Safe. -/
  | noEvent
  /-- an event before `RESET` (R90: a run is `RESET` followed by the others; log 2). Raised by INPUT, TICK,
  TAKE_PHASE, TAKE_TIMER, STEP. Safe. -/
  | beforeReset
  /-- a `RESET` that is not the first event of the run (R241). Raised by RESET. Safe. -/
  | secondReset
  /-- `TAKE_PHASE` with a handler running or its source not pending (R204). Raised by TAKE_PHASE. Safe. -/
  | phaseNotEnabled
  /-- `TAKE_TIMER` with a handler running, the source masked or no expiry pending (R205). Raised by TAKE_TIMER.
  Safe. -/
  | timerNotEnabled
  /-- `STEP` with no handler running (R180). Raised by STEP. Safe. -/
  | stepNotEnabled
  /-- a µop that is not the one the running handler fetches (the Enabled line of each µop's rule; log 12). Raised by
  the ten µops and the table entries. Safe. -/
  | uopNotEnabled
  /-- a table entry whose code is not the one `LOOKUP` forms (log 13). Raised by the table entries. Safe. -/
  | codeNotSelected
  deriving DecidableEq, Repr

/-- The machine right after reset (R45). The drawn and unspecified registers have the values that logs 5 to 8 name;
`PIN` is at `P_REST_LEVEL`, which is open (log 3), and `PMOV` at the spec value of `P_INIT_PREV_MOVEMENT` (log 4). -/
def State.reset : State where
  prev := phasePair false false
  pmov := Config.machine.initPrevMovement.code
  cur := none
  code := none
  mov := none
  valid := none
  pin := Config.machine.restLevel
  tie := false
  tov := false
  tcnt := 0
  pendA := false
  pendB := false
  busy := false
  upc := 0#4
  inA := false
  inB := false
  cfg := Config.machine
  started := true
  events := []
  drawIndex := 0

end Sys2Proof.Machine
end

