-- ==== Sys2Proof/Machine/Ops.lean ====
section
/-! DEFINITION. The named operations over the block's two read-only stores and its registers (spec/20_memory.md), the
outcomes that fault or refuse, and interrupt entry and return (spec/60_exceptions.md R208, R209). -/

namespace Sys2Proof.Machine

/-- What a step answers. -/
abbrev Result := Host.Outcome State Fault Refusal

/-- Go on where the condition holds, refuse otherwise (`refuse(reason)`, R13). -/
def guarded (ok : Bool) (r : Refusal) (o : Result) : Result :=
  bif ok then o else .refused r

/-- Go on with a value that was read, or fault (`fault(reason)`, R13). -/
def orFault {α : Type} (x : Except Fault α) (k : α → Result) : Result :=
  match x with
  | .ok v => k v
  | .error f => .fault f

/-! ### The two stores -/

/-- `TableRead(code)`: the movement table, defined at every code (R60); its entries are R110 to R125 in order. -/
def tableRead (c : TransCode) : Movement :=
  match codePrev c, codeCur c with
  | 0b00#2, 0b00#2 => .zero
  | 0b00#2, 0b01#2 => .minus
  | 0b00#2, 0b10#2 => .plus
  | 0b00#2, 0b11#2 => .zero
  | 0b01#2, 0b00#2 => .plus
  | 0b01#2, 0b01#2 => .zero
  | 0b01#2, 0b10#2 => .zero
  | 0b01#2, 0b11#2 => .minus
  | 0b10#2, 0b00#2 => .minus
  | 0b10#2, 0b01#2 => .zero
  | 0b10#2, 0b10#2 => .zero
  | 0b10#2, 0b11#2 => .plus
  | 0b11#2, 0b00#2 => .zero
  | 0b11#2, 0b01#2 => .plus
  | 0b11#2, 0b10#2 => .minus
  | 0b11#2, 0b11#2 => .zero

/-- The contents of the micro-program ROM, addresses 0 to 11 (R181). -/
def urom : List UopCode :=
  [0x0#4, 0x1#4, 0x2#4, 0x3#4, 0x4#4, 0x5#4, 0x6#4, 0x7#4, 0x8#4, 0x5#4, 0x9#4, 0x8#4]

/-- `UromRead(a)`; none above address 11, where there is no element (R62, R69). -/
def uromRead (a : Uaddr) : Option UopCode := urom[a.toNat]?

/-- The sequencer's fetch (R180): the µop at `UPC`, or its fault. -/
def fetchUop (s : State) : Except Fault Uop :=
  match uromRead s.upc with
  | none => .error .upcOutOfRom
  | some c =>
    match decodeUop c with
    | .ok u => .ok u
    | .error _ => .error .reservedUop

/-! ### The sequencer's registers -/

/-- The µROM address of the phase-change handler's entry (R201, R204). -/
def phaseEntry : Uaddr := 0#4

/-- The µROM address of the timer-expiry handler's entry (R201, R205). -/
def timerEntry : Uaddr := 9#4

/-- The target of `VALIDATE`'s skip (R87, R103). -/
def skipTarget : Uaddr := 7#4

/-- `UPC <- UPC + 1` (R180). -/
def advance (s : State) : State := { s with upc := s.upc + 1#4 }

/-- `CUR, CODE, MOV, VALID <- unwritten` (R22, R185, R204, R240). -/
def clearScratch (s : State) : State := { s with cur := none, code := none, mov := none, valid := none }

/-- Whether a µop with this code is the one that `STEP` executes now: the Enabled line of every µop's rule (log 12). -/
def uopEnabled (c : UopCode) (s : State) : Bool :=
  s.started && s.busy && decide (uromRead s.upc = some c)

/-- A µop's rule runs where the µop is enabled. -/
def whenUop (u : Uop) (s : State) (o : Result) : Result := guarded (uopEnabled u.code s) .uopNotEnabled o

/-! ### Interrupt entry and return -/

/-- Interrupt entry, the part both dispatches share (R208): nothing is saved, no mode changes, `BUSY` is set and
`UPC` is loaded with the handler's fixed entry. The taken flag is cleared by the dispatch itself (R204, R205). -/
def enterHandler (entry : Uaddr) (s : State) : State := { s with busy := true, upc := entry }

/-- Interrupt return (R185, R209): nothing is restored, `BUSY` is cleared, the scratch registers become unwritten and
`UPC` becomes unspecified, a free value (log 11). -/
def leaveHandler (s : State) : State :=
  clearScratch { s with busy := false, upc := Config.freeUpc s.drawIndex, drawIndex := s.drawIndex + 1 }

/-! ### The draws of `RESET` -/

/-- What `RESET` draws (R240): the timer count, the expiry flag, the two pending flags. -/
structure ResetDraws where
  t : Nat
  f : Bool
  pa : Bool
  pb : Bool
  deriving DecidableEq, Repr

/-- The draws of a `RESET` at a state: free values, the count brought into `0..P_MAX_COUNT` (R45; log 10). -/
def resetDraws (s : State) : ResetDraws where
  t := Config.drawTcnt s.drawIndex % (s.cfg.maxCount + 1)
  f := Config.drawTov s.drawIndex
  pa := Config.drawPendA s.drawIndex
  pb := Config.drawPendB s.drawIndex

end Sys2Proof.Machine
end

