-- ==== Sys2Proof/Machine/Operands.lean ====
section
/-! DEFINITION. The operands of the rules: the input port, the pending flag of a source, the scratch registers with
their unwritten and bad-movement faults, and the value that `LOAD` loads (spec/30_encoding.md R85, R87). -/

namespace Sys2Proof.Machine

/-- The input port `{IN_A, IN_B}`, one atomic read (spec/20_memory.md R64). -/
def inPair (s : State) : PhasePair := phasePair s.inA s.inB

/-- `PEND_s` (R204). -/
def pending (src : PhaseSource) (s : State) : Bool :=
  match src with
  | .a => s.pendA
  | .b => s.pendB

/-- `PEND_s <- 0` (R204). -/
def clearPending (src : PhaseSource) (s : State) : State :=
  match src with
  | .a => { s with pendA := false }
  | .b => { s with pendB := false }

/-- A read of a scratch register: `fault(UNWRITTEN_SCRATCH)` where it is unwritten (R22). -/
def readScratch {α : Type} (r : Option α) : Except Fault α :=
  match r with
  | some v => .ok v
  | none => .error .unwrittenScratch

/-- A read of a movement register's bits: `fault(BAD_MOVEMENT)` on the pattern 0b10 (R82; log 15). -/
def readMovement (c : MovementCode) : Except Fault Movement :=
  match Movement.ofCode c with
  | some m => .ok m
  | none => .error .badMovement

/-- `MOV`, unwritten before bad (R22, R82; log 14). -/
def readMov (s : State) : Except Fault Movement :=
  match readScratch s.mov with
  | .ok c => readMovement c
  | .error f => .error f

/-- `PMOV` (R21, R82). -/
def readPmov (s : State) : Except Fault Movement := readMovement s.pmov

/-- `CUR` (R22). -/
def readCur (s : State) : Except Fault PhasePair := readScratch s.cur

/-- `P_LOAD_VALUE`, what `LOAD` writes (R87, R152). -/
def loadOperand (s : State) : Nat := s.cfg.loadValue

/-- `ceil(w / t)` (R13). -/
def ceilDiv (w t : Nat) : Nat := (w + t - 1) / t

/-- The value the spec gives `P_LOAD_VALUE` (R8, R87): `P_MAX_COUNT − ceil(P_PULSE_WIDTH_TIME / P_TICK_TIME)`, the
two durations in one common unit. No event reads it: the parameter is taken directly (D9; log 19). -/
def loadFormula (maxCount pulseWidthTime tickTime : Nat) : Int := maxCount - ceilDiv pulseWidthTime tickTime

end Sys2Proof.Machine
end

