-- ==== Sys2Proof/Machine/Flags.lean ====
section
/-! DEFINITION. Every computation of a flag (spec/10_state.md R42) and every enabling condition (spec/30_encoding.md
R90). -/

namespace Sys2Proof.Machine

/-- A pending flag after the level of its line is set: set by a change of level, else as it was (R186). -/
def pendAfter (pend old new : Bool) : Bool := pend || (old != new)

/-- Whether a count expires at the next tick: it stands at `P_MAX_COUNT` (R157). -/
def atMax (s : State) : Bool := decide (s.tcnt = s.cfg.maxCount)

/-- `TCNT` after a tick: 0 from `P_MAX_COUNT`, one more otherwise (R157). -/
def countAfterTick (s : State) : Nat := bif atMax s then 0 else s.tcnt + 1

/-- `TOV` after a tick: set at the wrap, never cleared (R157). -/
def tovAfterTick (s : State) : Bool := s.tov || atMax s

/-- `VALID`: the movements are equal as integers (R103). -/
def validOf (mov pmov : Movement) : Bool := decide (mov.toInt = pmov.toInt)

/-- `TAKE_PHASE s` is enabled: `BUSY = 0 ∧ PEND_s = 1` (R90, R204). -/
def phaseEnabled (src : PhaseSource) (s : State) : Bool := !s.busy && pending src s

/-- `TAKE_TIMER` is enabled: `BUSY = 0 ∧ TIE = 1 ∧ TOV = 1` (R90, R205). -/
def timerEnabled (s : State) : Bool := !s.busy && s.tie && s.tov

end Sys2Proof.Machine
end

