-- ==== Sys2Proof/Machine/Events.lean ====
section
/-! DEFINITION. The events that are not `STEP`: initialisation, environment, timer and dispatch. Each but `RESET`
occurs after `RESET` only (spec/30_encoding.md R90, spec/42_sequencing.md R187; log 2). -/

namespace Sys2Proof.Machine

/-- The state that `RESET` leaves with the given draws (spec/70_reset_and_hazards.md R240, spec/10_state.md R45).
`IN` is unchanged; `UPC` is unspecified (log 11). -/
def resetWith (d : ResetDraws) (s : State) : State :=
  clearScratch
    { s with
      prev := inPair s
      pmov := s.cfg.initPrevMovement.code
      pin := s.cfg.restLevel
      tie := false
      tcnt := d.t
      tov := d.f
      pendA := d.pa
      pendB := d.pb
      busy := false
      upc := Config.freeUpc s.drawIndex
      started := true
      drawIndex := s.drawIndex + 1 }

/-- `RESET` (R240): the first event of a run; refused later (R241). -/
def execReset (s : State) : Result :=
  guarded (!s.started) .secondReset (.next (resetWith (resetDraws s) s))

/-- `INPUT a b` (spec/42_sequencing.md R186): an edge sets its line's pending flag; the levels are the new ones. -/
def execInput (a b : Bool) (s : State) : Result :=
  guarded s.started .beforeReset
    (.next
      { s with
        pendA := pendAfter s.pendA s.inA a
        pendB := pendAfter s.pendB s.inB b
        inA := a
        inB := b })

/-- `TICK` (spec/41_shaper.md R157): count up, wrapping from `P_MAX_COUNT` to 0 with `TOV` set. -/
def execTick (s : State) : Result :=
  guarded s.started .beforeReset (.next { s with tcnt := countAfterTick s, tov := tovAfterTick s })

/-- `TAKE_PHASE s` (spec/60_exceptions.md R204): clear the taken flag, mark the scratch registers unwritten, enter the
phase-change handler. -/
def execTakePhase (src : PhaseSource) (s : State) : Result :=
  guarded s.started .beforeReset
    (guarded (phaseEnabled src s) .phaseNotEnabled
      (.next (enterHandler phaseEntry (clearScratch (clearPending src s)))))

/-- `TAKE_TIMER` (spec/60_exceptions.md R205): clear `TOV`, enter the timer-expiry handler. The scratch registers are
not written (log 17). -/
def execTakeTimer (s : State) : Result :=
  guarded s.started .beforeReset
    (guarded (timerEnabled s) .timerNotEnabled (.next (enterHandler timerEntry { s with tov := false })))

end Sys2Proof.Machine
end

