-- ==== Sys2Proof/Machine/Decoder.lean ====
section
/-! DEFINITION. The Quadrature Decoder's µops (spec/40_decoder.md R101 to R104). -/

namespace Sys2Proof.Machine

/-- `SAMPLE` (R101): `CUR <- {IN_A, IN_B}`. -/
def execSample (s : State) : Result :=
  whenUop .sample s (.next (advance { s with cur := some (inPair s) }))

/-- The effect of the movement-table entry at a code (R102): `CODE <- code; MOV <- TableRead(code)`. -/
def writeEntry (c : TransCode) (s : State) : State :=
  advance { s with code := some c, mov := some (tableRead c).code }

/-- `LOOKUP` (R102): form the transition code `{PREV, CUR}` and take its table entry. -/
def execLookup (s : State) : Result :=
  whenUop .lookup s (orFault (readCur s) fun cur => .next (writeEntry (transCode s.prev cur) s))

/-- `VALIDATE` (R103): literal equality of the movements; on to the arm sequence, or skip to `UPDATE`. -/
def execValidate (s : State) : Result :=
  whenUop .validate s
    (orFault (readMov s) fun mov =>
      orFault (readPmov s) fun pmov =>
        .next
          { s with
            valid := some (validOf mov pmov)
            upc := bif validOf mov pmov then s.upc + 1#4 else skipTarget })

/-- `UPDATE` (R104): `PMOV <- MOV; PREV <- CUR`. -/
def execUpdate (s : State) : Result :=
  whenUop .update s
    (orFault (readMov s) fun mov =>
      orFault (readCur s) fun cur => .next (advance { s with pmov := mov.code, prev := cur }))

end Sys2Proof.Machine
end

