-- ==== Sys2Proof/Machine/Shaper.lean ====
section
/-! DEFINITION. The Pulse Shaper's µops (spec/41_shaper.md R151 to R155). -/

namespace Sys2Proof.Machine

/-- `CLRFLAG` (R151): `TOV <- 0`. -/
def execClrflag (s : State) : Result := whenUop .clrflag s (.next (advance { s with tov := false }))

/-- `LOAD` (R152): `TCNT <- P_LOAD_VALUE`; `TOV` is not touched. -/
def execLoad (s : State) : Result := whenUop .load s (.next (advance { s with tcnt := loadOperand s }))

/-- `TOGGLE` (R153): `PIN <- ¬PIN`, one atomic read-modify-write (spec/20_memory.md R65). -/
def execToggle (s : State) : Result := whenUop .toggle s (.next (advance { s with pin := !s.pin }))

/-- `ARM` (R154): `TIE <- 1`. -/
def execArm (s : State) : Result := whenUop .arm s (.next (advance { s with tie := true }))

/-- `DISARM` (R155): `TIE <- 0`. -/
def execDisarm (s : State) : Result := whenUop .disarm s (.next (advance { s with tie := false }))

end Sys2Proof.Machine
end

