-- ==== Sys2Proof/Machine/Sequencer.lean ====
section
/-! DEFINITION. The handler sequencer: the µop `RETI` and the event `STEP` (spec/42_sequencing.md R180, R185). -/

namespace Sys2Proof.Machine

/-- `RETI` (R185): the handler ends. -/
def execReti (s : State) : Result := whenUop .reti s (.next (leaveHandler s))

/-- Execute the rule of a µop (R180). -/
def runUop (u : Uop) (s : State) : Result :=
  match u with
  | .sample => execSample s
  | .lookup => execLookup s
  | .validate => execValidate s
  | .clrflag => execClrflag s
  | .load => execLoad s
  | .toggle => execToggle s
  | .arm => execArm s
  | .update => execUpdate s
  | .reti => execReti s
  | .disarm => execDisarm s

/-- `STEP` (R180): fetch the µop at `UPC` and execute it; not enabled while no handler runs. -/
def execStep (s : State) : Result :=
  guarded s.started .beforeReset
    (guarded s.busy .stepNotEnabled (orFault (fetchUop s) fun u => runUop u s))

end Sys2Proof.Machine
end

