-- ==== Sys2Proof/Machine/Table.lean ====
section
/-! DEFINITION. The 16 rows of format TC4: the movement-table entries (spec/40_decoder.md R110 to R125). A transition
code is no event and no µop; it selects a table entry (spec/30_encoding.md R93), and that entry's effect is the effect
of the `LOOKUP` that forms it (R102; log 13). -/

namespace Sys2Proof.Machine

/-- The table entry at code `c`: taken by the `LOOKUP` that forms this code, refused where `LOOKUP` forms another. -/
def selectEntry (c : TransCode) (s : State) : Result :=
  whenUop .lookup s
    (orFault (readCur s) fun cur =>
      guarded (decide (transCode s.prev cur = c)) .codeNotSelected (.next (writeEntry c s)))

/-- `TC_00_00` (R110): `00 → 00`, movement 0. -/
def execTc_00_00 (s : State) : Result := selectEntry 0b0000#4 s

/-- `TC_00_01` (R111): `00 → 01`, movement −1. -/
def execTc_00_01 (s : State) : Result := selectEntry 0b0001#4 s

/-- `TC_00_10` (R112): `00 → 10`, movement +1. -/
def execTc_00_10 (s : State) : Result := selectEntry 0b0010#4 s

/-- `TC_00_11` (R113): `00 → 11`, movement 0. -/
def execTc_00_11 (s : State) : Result := selectEntry 0b0011#4 s

/-- `TC_01_00` (R114): `01 → 00`, movement +1. -/
def execTc_01_00 (s : State) : Result := selectEntry 0b0100#4 s

/-- `TC_01_01` (R115): `01 → 01`, movement 0. -/
def execTc_01_01 (s : State) : Result := selectEntry 0b0101#4 s

/-- `TC_01_10` (R116): `01 → 10`, movement 0. -/
def execTc_01_10 (s : State) : Result := selectEntry 0b0110#4 s

/-- `TC_01_11` (R117): `01 → 11`, movement −1. -/
def execTc_01_11 (s : State) : Result := selectEntry 0b0111#4 s

/-- `TC_10_00` (R118): `10 → 00`, movement −1. -/
def execTc_10_00 (s : State) : Result := selectEntry 0b1000#4 s

/-- `TC_10_01` (R119): `10 → 01`, movement 0. -/
def execTc_10_01 (s : State) : Result := selectEntry 0b1001#4 s

/-- `TC_10_10` (R120): `10 → 10`, movement 0. -/
def execTc_10_10 (s : State) : Result := selectEntry 0b1010#4 s

/-- `TC_10_11` (R121): `10 → 11`, movement +1. -/
def execTc_10_11 (s : State) : Result := selectEntry 0b1011#4 s

/-- `TC_11_00` (R122): `11 → 00`, movement 0. -/
def execTc_11_00 (s : State) : Result := selectEntry 0b1100#4 s

/-- `TC_11_01` (R123): `11 → 01`, movement +1. -/
def execTc_11_01 (s : State) : Result := selectEntry 0b1101#4 s

/-- `TC_11_10` (R124): `11 → 10`, movement −1. -/
def execTc_11_10 (s : State) : Result := selectEntry 0b1110#4 s

/-- `TC_11_11` (R125): `11 → 11`, movement 0. -/
def execTc_11_11 (s : State) : Result := selectEntry 0b1111#4 s

end Sys2Proof.Machine
end

