-- ==== Sys2Proof/Machine/Dispatch.lean ====
section
/-! DEFINITION. The dispatch: one arm per constructor of Instr. -/

namespace Sys2Proof.Machine

def exec (i : Instr) (s : State) : Host.Outcome State Fault Refusal :=
  match i with
  | .reset => Sys2Proof.Machine.execReset s
  | .input a b => Sys2Proof.Machine.execInput a b s
  | .tick => Sys2Proof.Machine.execTick s
  | .takePhase source => Sys2Proof.Machine.execTakePhase source s
  | .takeTimer => Sys2Proof.Machine.execTakeTimer s
  | .step => Sys2Proof.Machine.execStep s
  | .sample => Sys2Proof.Machine.execSample s
  | .lookup => Sys2Proof.Machine.execLookup s
  | .validate => Sys2Proof.Machine.execValidate s
  | .clrflag => Sys2Proof.Machine.execClrflag s
  | .load => Sys2Proof.Machine.execLoad s
  | .toggle => Sys2Proof.Machine.execToggle s
  | .arm => Sys2Proof.Machine.execArm s
  | .update => Sys2Proof.Machine.execUpdate s
  | .reti => Sys2Proof.Machine.execReti s
  | .disarm => Sys2Proof.Machine.execDisarm s
  | .tc_00_00 => Sys2Proof.Machine.execTc_00_00 s
  | .tc_00_01 => Sys2Proof.Machine.execTc_00_01 s
  | .tc_00_10 => Sys2Proof.Machine.execTc_00_10 s
  | .tc_00_11 => Sys2Proof.Machine.execTc_00_11 s
  | .tc_01_00 => Sys2Proof.Machine.execTc_01_00 s
  | .tc_01_01 => Sys2Proof.Machine.execTc_01_01 s
  | .tc_01_10 => Sys2Proof.Machine.execTc_01_10 s
  | .tc_01_11 => Sys2Proof.Machine.execTc_01_11 s
  | .tc_10_00 => Sys2Proof.Machine.execTc_10_00 s
  | .tc_10_01 => Sys2Proof.Machine.execTc_10_01 s
  | .tc_10_10 => Sys2Proof.Machine.execTc_10_10 s
  | .tc_10_11 => Sys2Proof.Machine.execTc_10_11 s
  | .tc_11_00 => Sys2Proof.Machine.execTc_11_00 s
  | .tc_11_01 => Sys2Proof.Machine.execTc_11_01 s
  | .tc_11_10 => Sys2Proof.Machine.execTc_11_10 s
  | .tc_11_11 => Sys2Proof.Machine.execTc_11_11 s

end Sys2Proof.Machine
end

