-- ==== Sys2Proof/Machine/Fetch.lean ====
section
/-! DEFINITION. Fetching the next event of a run, and placing an opcode-table row where the next step runs it. -/

namespace Sys2Proof.Machine

/-- The next event of the run and the state with it taken from the list: the head of the event words, decoded
(spec/30_encoding.md R83, R88). Log 1. -/
def fetchEvent (s : State) : Except Refusal (Instr × State) :=
  match s.events with
  | [] => .error .noEvent
  | w :: rest =>
    match decodeEvent w with
    | .ok i => .ok (i, { s with events := rest })
    | .error _ => .error .reservedEvent

/-- Put an event word next in the run. -/
def pushEvent (w : EventWord) (s : State) : State := { s with events := w :: s.events }

/-- A handler at a µROM address with the scratch registers as its run leaves them there: `CUR` sampled, `CODE` and
`MOV` of the code `{PREV, CUR}` (R101, R102). -/
def inHandler (a : Uaddr) (cur : PhasePair) (s : State) : State :=
  { s with
    started := true
    busy := true
    upc := a
    cur := some cur
    code := some (transCode s.prev cur)
    mov := some (tableRead (transCode s.prev cur)).code }

/-- The first µROM address that holds a µop (R181). -/
def uopAddress : Uop → Uaddr
  | .sample => 0#4
  | .lookup => 1#4
  | .validate => 2#4
  | .clrflag => 3#4
  | .load => 4#4
  | .toggle => 5#4
  | .arm => 6#4
  | .update => 7#4
  | .reti => 8#4
  | .disarm => 10#4

/-- The state in which the next step executes a µop: the event `STEP` is next and a handler is at the µop's address. -/
def placeUop (u : Uop) (s : State) : State := pushEvent 0x50#8 (inHandler (uopAddress u) (inPair s) s)

/-- The state in which the next step takes a table entry: `LOOKUP` is next and `{PREV, CUR}` is the code. -/
def placeEntry (c : TransCode) (s : State) : State :=
  pushEvent 0x50#8
    { s with started := true, busy := true, upc := uopAddress .lookup, prev := codePrev c, cur := some (codeCur c) }

/-- The state in which an event is enabled (R90). -/
def enable (i : Instr) (s : State) : State :=
  match i with
  | .reset => { s with started := false }
  | .takePhase .a => { s with started := true, busy := false, pendA := true }
  | .takePhase .b => { s with started := true, busy := false, pendB := true }
  | .takeTimer => { s with started := true, busy := false, tie := true, tov := true }
  | .step => inHandler (uopAddress .sample) (inPair s) s
  | _ => { s with started := true }

/-- A four-bit row's word placed as `decodeNibble` reads it. Log 16. -/
def placeNibble (c : BitVec 4) (s : State) : State :=
  match decodeUop c with
  | .ok u => placeUop u s
  | .error _ => placeEntry c s

/-- A row's word placed as `decodeTableWord` reads it; a word that no row has goes into the event list, where the next
step refuses it. Logs 16, 21. -/
def placeRow (s : State) (nbits w : Nat) : State :=
  if nbits ≤ 4 then placeNibble (BitVec.ofNat 4 w) s
  else
    match decodeEvent (BitVec.ofNat 8 w) with
    | .ok i => pushEvent (BitVec.ofNat 8 w) (enable i s)
    | .error _ => if w < 16 then placeNibble (BitVec.ofNat 4 w) s else pushEvent (BitVec.ofNat 8 w) s

end Sys2Proof.Machine
end

