-- ==== Sys2Proof/Machine/Step.lean ====
section
/-! DEFINITION. One step of the machine: the next event of the run (spec/42_sequencing.md R187, R188), and the host's
placing of an instruction. -/

namespace Sys2Proof.Machine

/-- One step: take the next event word from the list and apply its event's rule (R187). -/
def step (s : State) : Host.Outcome State Fault Refusal :=
  match fetchEvent s with
  | .ok (i, t) => exec i t
  | .error r => .refused r

/-- The state in which the very next step runs the row that `decodeTableWord` reads. Log 21. -/
def State.withFetchWord (s : State) (nbits w : Nat) : State := placeRow s nbits w

end Sys2Proof.Machine
end

