-- ==== Sys2Proof/Machine/Asm.lean ====
section
/-! DEFINITION. The text syntax of event programs (spec/30_encoding.md R91) and the pseudo-instructions (R92). Both
are the spec's own, for test programs; nothing in the machine reads them. -/

namespace Sys2Proof.Machine

/-- A line of an event program: an event or a pseudo-instruction. -/
inductive Line where
  | event (i : Instr)
  | ticks (n : Nat)
  | runPhase (source : PhaseSource)
  | runTimer
  | edge (a b : Bool)
  deriving DecidableEq, Repr

/-! ### Text -/

/-- A line without its comment: `;` starts one that runs to the end of the line (R91). -/
def stripComment : List Char → List Char
  | [] => []
  | c :: cs => if c = ';' then [] else c :: stripComment cs

/-- The words of a line, separated by spaces (log 22). -/
def splitWords : List Char → List (List Char)
  | [] => [[]]
  | c :: cs =>
    if c = ' ' then [] :: splitWords cs
    else
      match splitWords cs with
      | w :: ws => (c :: w) :: ws
      | [] => [[c]]

/-- The words of a line of text. -/
def words (line : List Char) : List (List Char) :=
  (splitWords (stripComment line)).filter fun w => !w.isEmpty

/-- A level, `0` or `1` (R91). -/
def levelOf (w : List Char) : Option Bool :=
  if w = ['0'] then some false else if w = ['1'] then some true else none

/-- A source, `A` or `B` (R91). -/
def sourceOf (w : List Char) : Option PhaseSource :=
  if w = ['A'] then some .a else if w = ['B'] then some .b else none

/-- The value of a decimal digit. -/
def digitOf (c : Char) : Option Nat :=
  if '0'.toNat ≤ c.toNat ∧ c.toNat ≤ '9'.toNat then some (c.toNat - '0'.toNat) else none

/-- A count in decimal digits (log 22). -/
def countOf : Nat → List Char → Option Nat
  | acc, [] => some acc
  | acc, c :: cs =>
    match digitOf c with
    | some d => countOf (10 * acc + d) cs
    | none => none

/-- One line of an event program (R91, R92): none where it is no line of the syntax, an empty line is `some none`. -/
def parseLine (line : List Char) : Option (Option Line) :=
  match words line with
  | [] => some none
  | [m] =>
    if m = "RESET".toList then some (some (.event .reset))
    else if m = "TICK".toList then some (some (.event .tick))
    else if m = "TAKE_TIMER".toList then some (some (.event .takeTimer))
    else if m = "STEP".toList then some (some (.event .step))
    else if m = "RUNTIMER".toList then some (some .runTimer)
    else none
  | [m, x] =>
    if m = "TAKE_PHASE".toList then (sourceOf x).map fun s => some (.event (.takePhase s))
    else if m = "RUNPHASE".toList then (sourceOf x).map fun s => some (.runPhase s)
    else if m = "TICKS".toList then (countOf 0 x).map fun n => some (.ticks n)
    else none
  | [m, x, y] =>
    match levelOf x, levelOf y with
    | some a, some b =>
      if m = "INPUT".toList then some (some (.event (.input a b)))
      else if m = "EDGE".toList then some (some (.edge a b))
      else none
    | _, _ => none
  | _ => none

/-! ### Expansion -/

/-- The state after a list of events, none where one of them is not enabled (R92: an expansion is valid only where
each event in it is enabled). -/
def execAll : List Instr → State → Option State
  | [], s => some s
  | i :: is, s =>
    match exec i s with
    | .next t => execAll is t
    | _ => none

/-- `STEP` repeated until `BUSY = 0`, at most `fuel` times; a handler run takes at most 9 (R182). -/
def stepsToEnd : Nat → State → Option (List Instr)
  | 0, s => if s.busy then none else some []
  | n + 1, s =>
    if s.busy then
      match exec .step s with
      | .next t => (stepsToEnd n t).map (.step :: ·)
      | _ => none
    else some []

/-- The expansion of `RUNPHASE s` at a state (R92). -/
def expandRunPhase (src : PhaseSource) (s : State) : Option (List Instr) :=
  match exec (.takePhase src) s with
  | .next t => (stepsToEnd 9 t).map (.takePhase src :: ·)
  | _ => none

/-- The expansion of `EDGE a b` at a state: `INPUT a b`, then the run of the one line whose level changes; refused if
zero or two lines change (R92). -/
def expandEdge (a b : Bool) (s : State) : Option (List Instr) :=
  match exec (.input a b) s with
  | .next t =>
    match s.inA != a, s.inB != b with
    | true, false => (expandRunPhase .a t).map (.input a b :: ·)
    | false, true => (expandRunPhase .b t).map (.input a b :: ·)
    | _, _ => none
  | _ => none

/-- The expansion of a line into events at a state, whatever is enabled. -/
def expandRaw (l : Line) (s : State) : Option (List Instr) :=
  match l with
  | .event i => some [i]
  | .ticks n => some (List.replicate n .tick)
  | .runPhase src => expandRunPhase src s
  | .runTimer => some [.takeTimer, .step, .step, .step]
  | .edge a b => expandEdge a b s

/-- The expansion of a line at a state: none where an event of it is not enabled (R92). -/
def expand (l : Line) (s : State) : Option (List Instr) :=
  match expandRaw l s with
  | some is => if (execAll is s).isSome then some is else none
  | none => none

/-- The event word of an event. -/
def eventWord (i : Instr) : Option EventWord :=
  match encode i with
  | .ev8 w => some w
  | _ => none

/-- The event words of a program and its end state, from a state before `RESET`. -/
def assemble : List Line → State → Option (List EventWord × State)
  | [], s => some ([], s)
  | l :: ls, s =>
    match expand l s with
    | none => none
    | some is =>
      match execAll is s with
      | none => none
      | some t => (assemble ls t).map fun r => (is.filterMap eventWord ++ r.1, r.2)

end Sys2Proof.Machine
end

