-- ==== Sys2Proof/Machine/Views.lean ====
section
/-! DEFINITION. Derived views of the state: the output port, the Shaper's states and `PulseState`
(spec/10_state.md R43), quiescence (spec/42_sequencing.md R189), and the numbered register words of R40. -/

namespace Sys2Proof.Machine

/-- Port `PULSE_OUT`: the level of `PIN` (spec/00_scope.md R7). -/
def pulseOut (s : State) : Bool := s.pin

/-- The Shaper's two states (spec/41_shaper.md R150). -/
inductive ShaperState where
  | idle
  | armed
  deriving DecidableEq, Repr

/-- `ARMED` when `TIE = 1`, `IDLE` when `TIE = 0` (R31, R150). -/
def shaperState (s : State) : ShaperState := bif s.tie then .armed else .idle

/-- `PulseState`: `PIN XOR P_REST_LEVEL` (R43). -/
def pulseState (s : State) : Bool := s.pin ^^ s.cfg.restLevel

/-- Quiescent: no handler runs, no phase edge is pending, and no enabled expiry is pending (R189). -/
def quiescent (s : State) : Bool := !s.busy && !s.pendA && !s.pendB && (!s.tie || !s.tov)

/-- Register 6, `PEND`: [1] PEND_A, [0] PEND_B (R40). -/
def pendWord (s : State) : BitVec 2 := BitVec.ofBool s.pendA ++ BitVec.ofBool s.pendB

/-- Register 7, `SEQ`: [4] BUSY, [3:0] UPC (R40). -/
def seqWord (s : State) : BitVec 5 := BitVec.ofBool s.busy ++ s.upc

/-- Register 8, `SCRATCH`: [8] VALID, [7:6] MOV, [5:2] CODE, [1:0] CUR (R40); none while a field is unwritten. -/
def scratchWord (s : State) : Option (BitVec 9) :=
  match s.valid, s.mov, s.code, s.cur with
  | some v, some m, some c, some p => some (BitVec.ofBool v ++ m ++ c ++ p)
  | _, _, _, _ => none

/-- The width w of `TCNT`: the bits needed for `P_MAX_COUNT` (R40). -/
def countWidth (p : Params) : Nat := Nat.log2 p.maxCount + 1

/-- Register 5, `TCNT`, as a word of w bits (R40). -/
def tcntWord (s : State) : BitVec (countWidth s.cfg) := BitVec.ofNat (countWidth s.cfg) s.tcnt

/-- The registers by R40's numbers, each as a number; none for a number that is no register and for unwritten
scratch. -/
def registerWord (n : Nat) (s : State) : Option Nat :=
  match n with
  | 0 => some s.prev.toNat
  | 1 => some s.pmov.toNat
  | 2 => some s.pin.toNat
  | 3 => some s.tie.toNat
  | 4 => some s.tov.toNat
  | 5 => some (tcntWord s).toNat
  | 6 => some (pendWord s).toNat
  | 7 => some (seqWord s).toNat
  | 8 => (scratchWord s).map BitVec.toNat
  | _ => none

end Sys2Proof.Machine
end

