-- ==== Sys2Proof/Machine/Observe.lean ====
section
/-! DEFINITION. Runs, finite and infinite, and their observation: the trace of `PIN` with the events that changed it
(spec/42_sequencing.md R189). -/

namespace Sys2Proof.Machine

/-! ### Runs -/

/-- `k` steps of the machine. -/
def runSteps : Nat → State → Result
  | 0, s => .next s
  | k + 1, s =>
    match step s with
    | .next t => runSteps k t
    | .fault f => .fault f
    | .refused r => .refused r

/-- The state with these event words as the events to come: a finite run is placed whole (log 1). -/
def placeRun (ws : List EventWord) (s : State) : State := { s with events := ws }

/-- The first `n` event words of an infinite run. -/
def firstEvents (es : Nat → EventWord) (n : Nat) : List EventWord := (List.range n).map es

/-- A finite run from a state: every event of it has its step (R187, R189). -/
def FiniteRun (ws : List EventWord) (s : State) : Prop := ∃ t, runSteps ws.length (placeRun ws s) = .next t

/-- An infinite run from a state, an event word for each step: every finite part of it from its start is a run (R189:
there is no end of a run). State holds the events of a part; the whole is no state (log 1). -/
def InfiniteRun (es : Nat → EventWord) (s : State) : Prop := ∀ n, FiniteRun (firstEvents es n) s

/-! ### The observation -/

/-- What one event of a run shows: the value of `PIN` after it, and the event itself where it changed `PIN`. -/
structure Observed where
  level : Bool
  changedBy : Option Instr
  deriving DecidableEq, Repr

/-- What an event shows that takes a state to the next one. `RESET` gives the pin its first level, so it counts as
changing it (log 23). -/
def observed (i : Instr) (s t : State) : Observed where
  level := pulseOut t
  changedBy := if i = .reset ∨ pulseOut t ≠ pulseOut s then some i else none

/-- The observation of the next `k` steps: the values of `PIN`, which are the `PULSE_OUT` trace, with the events that
changed it (R189). It ends where a step has no next state. -/
def observation : Nat → State → List Observed
  | 0, _ => []
  | k + 1, s =>
    match fetchEvent s with
    | .error _ => []
    | .ok (i, u) =>
      match exec i u with
      | .next t => observed i s t :: observation k t
      | _ => []

/-- The observation of an infinite run, step by step: step `k` shows what it shows in the part that ends with it. -/
def observationAt (es : Nat → EventWord) (s : State) (k : Nat) : Option Observed :=
  (observation (k + 1) (placeRun (firstEvents es (k + 1)) s))[k]?

end Sys2Proof.Machine
end

