-- ==== Sys2Proof/Safety.lean ====
section
/-! DEFINITION. The terms the statements use: where a µop is ready to execute, the invariant of reachable states, runs,
the swap of the two phases, and what the rules count along a run. -/

namespace Sys2Proof.Machine

/-! ### Readiness -/

/-- A µop is ready: a handler runs and its fetch returns this µop (the Enabled line of the µop's rule). -/
def UopReady (u : Uop) (s : State) : Prop :=
  s.started = true ∧ s.busy = true ∧ uromRead s.upc = some u.code

/-- The µop that an instruction executes at a state: the fetched one for `STEP`, its own for a µop, `LOOKUP` for a
table entry, none for the other events. -/
def executedUop (i : Instr) (s : State) : Option Uop :=
  match i with
  | .reset | .input _ _ | .tick | .takePhase _ | .takeTimer => none
  | .step => (fetchUop s).toOption
  | .sample => some .sample
  | .lookup => some .lookup
  | .validate => some .validate
  | .clrflag => some .clrflag
  | .load => some .load
  | .toggle => some .toggle
  | .arm => some .arm
  | .update => some .update
  | .reti => some .reti
  | .disarm => some .disarm
  | .tc_00_00 | .tc_00_01 | .tc_00_10 | .tc_00_11 | .tc_01_00 | .tc_01_01 | .tc_01_10 | .tc_01_11
  | .tc_10_00 | .tc_10_01 | .tc_10_10 | .tc_10_11 | .tc_11_00 | .tc_11_01 | .tc_11_10 | .tc_11_11 =>
    some .lookup

/-! ### The invariant -/

/-- The scratch registers are unwritten (spec/10_state.md R22). -/
def Unwritten (s : State) : Prop := s.cur = none ∧ s.code = none ∧ s.mov = none ∧ s.valid = none

/-- After `SAMPLE`: `CUR` is written and nothing else is. -/
def Sampled (s : State) : Prop :=
  (∃ c, s.cur = some c) ∧ s.code = none ∧ s.mov = none ∧ s.valid = none

/-- After `LOOKUP`: `CODE` is `{PREV, CUR}` and `MOV` its table entry (spec/40_decoder.md R102). -/
def LookedUp (s : State) : Prop :=
  ∃ c, s.cur = some c ∧ s.code = some (transCode s.prev c) ∧
    s.mov = some (tableRead (transCode s.prev c)).code

/-- After `UPDATE`: `PREV` is `CUR`, which is bits [1:0] of `CODE`, and `PMOV` is `MOV` (R104, R134). -/
def Recorded (s : State) : Prop :=
  ∃ k, s.code = some k ∧ s.cur = some (codeCur k) ∧ s.prev = codeCur k ∧
    s.mov = some (tableRead k).code ∧ s.pmov = (tableRead k).code

/-- What holds when a handler is at a µROM address (spec/42_sequencing.md R181, R182): the scratch registers written
so far, and in the timer-expiry handler the enable it has not yet cleared or has. -/
def HandlerAt (a : Nat) (s : State) : Prop :=
  match a with
  | 0 => Unwritten s
  | 1 => Sampled s
  | 2 => LookedUp s ∧ s.valid = none
  | 3 | 4 | 5 | 6 => LookedUp s ∧ s.valid = some true ∧ s.mov = some s.pmov
  | 7 => LookedUp s ∧ s.valid = some (decide (s.mov = some s.pmov))
  | 8 => Recorded s ∧ s.valid.isSome = true
  | 9 | 10 => Unwritten s ∧ s.tie = true
  | 11 => Unwritten s ∧ s.tie = false
  | _ => False

/-- The invariant of the states that runs reach: `PMOV` is a movement (R82), `TCNT` is in `0..P_MAX_COUNT` (R33), a
running handler is at a µROM address with its scratch registers written as far as it has come (R22, R37), and no
scratch register is written while none runs (D33). -/
structure BlockInv (s : State) : Prop where
  started : s.started = true
  pmov_legal : s.pmov ≠ 0b10#2
  count_in_range : s.tcnt ≤ s.cfg.maxCount
  handler : s.busy = true → HandlerAt s.upc.toNat s
  idle : s.busy = false → Unwritten s

/-- The µops that a running handler has still to execute at most (R182): to `RETI` at 8 or at 11. -/
def stepsLeft (s : State) : Nat :=
  if s.busy then (if s.upc.toNat ≤ 8 then 9 - s.upc.toNat else 12 - s.upc.toNat) else 0

/-! ### What the rules count along a run -/

/-- Whether the next step executes `TOGGLE`: the next event is `STEP` and its fetch returns that µop. -/
def togglesNext (s : State) : Bool :=
  match s.events with
  | [] => false
  | w :: _ =>
    match decodeEvent w with
    | .ok i => decide (executedUop i s = some .toggle)
    | .error _ => false

/-- How many `TOGGLE`s the next `k` steps execute (spec/41_shaper.md R160). -/
def toggleCount : Nat → State → Nat
  | 0, _ => 0
  | k + 1, s =>
    (if togglesNext s then 1 else 0) +
      match step s with
      | .next t => toggleCount k t
      | _ => 0

/-- How many of the invocations that see these pairs in turn are validated, from a previous pair and movement: those
whose movement equals the one before (spec/40_decoder.md R130). -/
def validatedCount : PhasePair → MovementCode → List PhasePair → Nat
  | _, _, [] => 0
  | prev, pmov, p :: ps =>
    (if (tableRead (transCode prev p)).code = pmov then 1 else 0) +
      validatedCount p (tableRead (transCode prev p)).code ps

/-- The lines of an event program that move the inputs through these levels, one `EDGE` each (spec/30_encoding.md
R92). -/
def edges (levels : List (Bool × Bool)) : List Line := levels.map fun l => .edge l.1 l.2

/-! ### The swap of the phases -/

/-- A pair with its two phases swapped. -/
def swapPair (p : PhasePair) : PhasePair := phasePair (p.getLsbD 0) (p.getLsbD 1)

/-- A transition code with the two phases swapped in both of its pairs. -/
def swapCode (c : TransCode) : TransCode := transCode (swapPair (codePrev c)) (swapPair (codeCur c))

/-- The opposite movement. -/
def negMovement : Movement → Movement
  | .minus => .plus
  | .zero => .zero
  | .plus => .minus

/-- The same event of a block whose phases are swapped. -/
def swapInstr (i : Instr) : Instr :=
  match i with
  | .input a b => .input b a
  | .takePhase .a => .takePhase .b
  | .takePhase .b => .takePhase .a
  | other => other

/-- The same event word of a block whose phases are swapped. -/
def swapWord (w : EventWord) : EventWord :=
  match decodeEvent w with
  | .ok i => (eventWord (swapInstr i)).getD w
  | .error _ => w

/-- The same state of a block whose phases are swapped: lines, pending flags, pairs and codes swapped, movements
negated (spec/40_decoder.md R132). The Shaper's and the sequencer's registers are the same. -/
def swapPhases (s : State) : State :=
  { s with
    prev := swapPair s.prev
    pmov := -s.pmov
    cur := s.cur.map swapPair
    code := s.code.map swapCode
    mov := s.mov.map (fun m => -m)
    pendA := s.pendB
    pendB := s.pendA
    inA := s.inB
    inB := s.inA
    events := s.events.map swapWord }

/-- The outcome with its next state swapped. -/
def swapResult : Result → Result
  | .next s => .next (swapPhases s)
  | .fault f => .fault f
  | .refused r => .refused r

end Sys2Proof.Machine
end

