-- ==== Sys2Proof/Certificates/Slice0/Obligations.lean ====
section
/-! DEFINITION. The statements for the provers. A µop's statement is about the µop as `STEP` executes it
(SequencerExecutesTheUromElement); a run reaches exec through StepRunsTheNextEvent. -/

open Sys2Proof Sys2Proof.Machine Host

/-! ### Encoding and fetch -/

/-- Decoding an encoded instruction gives it back, and no other word decodes to it (R80, R84 to R86). -/
def Obligations.DecodeOfEncodeIsTheInstruction : Prop :=
  (∀ i : Instr, i.wellFormed = true → decode (encode i) = .ok i) ∧
    ∀ (w : CodeWord) (i : Instr), decode w = .ok i → w = encode i

/-- The event decoder reads a word as one of the six events exactly where R84 and R85 spell one, and refuses every
other word by name (R88, R89). -/
def Obligations.EventWordsDecodeToSixEventsOrNone : Prop :=
  ∀ w : EventWord,
    ((∃ i, decodeEvent w = .ok i) ↔
      (w.toNat / 16 = 1 ∧ w.toNat % 16 < 4) ∨ (w.toNat / 16 = 3 ∧ w.toNat % 16 < 2) ∨
        ((w.toNat / 16 = 0 ∨ w.toNat / 16 = 2 ∨ w.toNat / 16 = 4 ∨ w.toNat / 16 = 5) ∧ w.toNat % 16 = 0)) ∧
    (∀ i, decodeEvent w = .ok i →
      i = .reset ∨ (∃ a b, i = .input a b) ∨ i = .tick ∨ (∃ c, i = .takePhase c) ∨ i = .takeTimer ∨ i = .step) ∧
    ((¬∃ i, decodeEvent w = .ok i) → decodeEvent w = .error .reservedEvent)

/-- Words of each format as the spec spells them (spec/95_test_vectors.md V-DECODE, R86, R112). -/
def Obligations.SpecWordsDecode : Prop :=
  decode (.ev8 0x12#8) = .ok (.input true false) ∧ decode (.ev8 0x11#8) = .ok (.input false true) ∧
    decode (.ev8 0x31#8) = .ok (.takePhase .b) ∧ decode (.ev8 0x50#8) = .ok .step ∧
    decode (.ev8 0x14#8) = .error .reservedEvent ∧ decode (.ev8 0x32#8) = .error .reservedEvent ∧
    decode (.uop4 0x2#4) = .ok .validate ∧ decode (.uop4 0x9#4) = .ok .disarm ∧
    decode (.uop4 0xA#4) = .error .reservedUop ∧ decode (.tc4 0b0010#4) = .ok .tc_00_10 ∧
    decode (.tc4 0b1110#4) = .ok .tc_11_10

/-- A step runs the next event of the run: where the next event word decodes to an instruction, the step is that
instruction at the state with the word taken from the list (R187). -/
def Obligations.StepRunsTheNextEvent : Prop :=
  ∀ (s : State) (w : EventWord) (rest : List EventWord) (i : Instr),
    s.events = w :: rest → decode (.ev8 w) = .ok i → step s = exec i { s with events := rest }

/-- A reserved event word is refused and is no no-op (R88); with no event chosen there is no step (the model's choice,
log 1). -/
def Obligations.StepRefusesReservedWords : Prop :=
  (∀ (s : State) (w : EventWord) (rest : List EventWord),
    s.events = w :: rest → decodeEvent w = .error .reservedEvent → step s = .refused .reservedEvent) ∧
  ∀ s : State, s.events = [] → step s = .refused .noEvent

/-- `STEP` executes the rule of the µROM element at `UPC`, the ROM being R181's; above address 11 it faults, and with no
handler running it is not enabled (R180, R181, R69). -/
def Obligations.SequencerExecutesTheUromElement : Prop :=
  ∀ s : State, s.started = true →
    (s.busy = false → exec .step s = .refused .stepNotEnabled) ∧
    (s.busy = true →
      (s.upc = 0#4 → exec .step s = exec .sample s) ∧
      (s.upc = 1#4 → exec .step s = exec .lookup s) ∧
      (s.upc = 2#4 → exec .step s = exec .validate s) ∧
      (s.upc = 3#4 → exec .step s = exec .clrflag s) ∧
      (s.upc = 4#4 → exec .step s = exec .load s) ∧
      (s.upc = 5#4 → exec .step s = exec .toggle s) ∧
      (s.upc = 6#4 → exec .step s = exec .arm s) ∧
      (s.upc = 7#4 → exec .step s = exec .update s) ∧
      (s.upc = 8#4 → exec .step s = exec .reti s) ∧
      (s.upc = 9#4 → exec .step s = exec .toggle s) ∧
      (s.upc = 10#4 → exec .step s = exec .disarm s) ∧
      (s.upc = 11#4 → exec .step s = exec .reti s) ∧
      (11 < s.upc.toNat → exec .step s = .fault .upcOutOfRom))

/-- `STEP` completes in every state of the invariant in which a handler runs: it answers the next state of the µop it
fetches (R180, R182, R188). -/
def Obligations.StepCompletesWhileAHandlerRuns : Prop :=
  ∀ s : State, BlockInv s → s.busy = true →
    ∃ u t, fetchUop s = .ok u ∧ exec .step s = .next t ∧ exec u.toInstr s = .next t

/-! ### The Decoder's µops -/

/-- `SAMPLE`: `CUR <- {IN_A, IN_B}`, nothing else but `UPC` (R101). -/
def Obligations.SampleReadsBothLines : Prop :=
  ∀ s : State,
    (UopReady .sample s →
      exec .sample s =
        .next { s with cur := some (BitVec.ofBool s.inA ++ BitVec.ofBool s.inB), upc := s.upc + 1#4 })

/-- `LOOKUP`: `CODE <- {PREV, CUR}` and `MOV` from the table, whose entries by code are R126's array (R102). -/
def Obligations.LookupFormsCodeAndMovement : Prop :=
  ∀ s : State,
    (∀ c : PhasePair, UopReady .lookup s → s.cur = some c →
      ∃ m : Movement,
        [0, -1, 1, 0, 1, 0, 0, -1, -1, 0, 0, 1, 0, 1, -1, 0][4 * s.prev.toNat + c.toNat]? = some m.toInt ∧
        exec .lookup s =
          .next { s with code := some (s.prev ++ c), mov := some m.code, upc := s.upc + 1#4 }) ∧
    (UopReady .lookup s → s.cur = none → exec .lookup s = .fault .unwrittenScratch)

/-- `VALIDATE`: `VALID` says whether the movements are equal as integers, 0 = 0 among them; valid goes on to address 3,
invalid skips to 7 (R103). -/
def Obligations.ValidateComparesMovements : Prop :=
  ∀ (s : State),
    (∀ m p : Movement, UopReady .validate s → s.mov = some m.code → s.pmov = p.code →
      (m.toInt = p.toInt → exec .validate s = .next { s with valid := some true, upc := 3#4 }) ∧
      (m.toInt ≠ p.toInt → exec .validate s = .next { s with valid := some false, upc := 7#4 })) ∧
    (UopReady .validate s → s.mov = none → exec .validate s = .fault .unwrittenScratch)

/-- `UPDATE`: `PMOV <- MOV` and `PREV <- CUR`, whatever `VALID` holds (R104). -/
def Obligations.UpdateRecordsTheTransition : Prop :=
  ∀ s : State,
    (∀ (m : Movement) (c : PhasePair), UopReady .update s → s.mov = some m.code → s.cur = some c →
      exec .update s = .next { s with pmov := m.code, prev := c, upc := s.upc + 1#4 })

/-- `UPDATE` faults on an unwritten `MOV` or `CUR` (R22), and `UPDATE` and `VALIDATE` fault on the pattern 0b10 in `MOV`
or `PMOV` (R82). Which µop raises them, and in which order, is deduced: logs 14, 15. -/
def Obligations.BadScratchReadsFault : Prop :=
  ∀ s : State,
    (UopReady .update s → s.mov = none → exec .update s = .fault .unwrittenScratch) ∧
    (∀ m : Movement, UopReady .update s → s.mov = some m.code → s.cur = none →
      exec .update s = .fault .unwrittenScratch) ∧
    (UopReady .update s → s.mov = some 0b10#2 → exec .update s = .fault .badMovement) ∧
    (UopReady .validate s → s.mov = some 0b10#2 → exec .validate s = .fault .badMovement) ∧
    (∀ m : Movement, UopReady .validate s → s.mov = some m.code → s.pmov = 0b10#2 →
      exec .validate s = .fault .badMovement)

/-! ### The Shaper's µops and the handler's end -/

/-- `CLRFLAG`: `TOV <- 0` (R151). -/
def Obligations.ClrflagClearsTheExpiryFlag : Prop :=
  ∀ s : State,
    (UopReady .clrflag s → exec .clrflag s = .next { s with tov := false, upc := s.upc + 1#4 })

/-- `LOAD`: `TCNT <- P_LOAD_VALUE`, which lies in `0..P_MAX_COUNT`; `TOV` is not touched (R152). -/
def Obligations.LoadSetsTheCount : Prop :=
  ∀ s : State,
    (UopReady .load s → exec .load s = .next { s with tcnt := s.cfg.loadValue, upc := s.upc + 1#4 }) ∧
    s.cfg.loadValue ≤ s.cfg.maxCount

/-- `TOGGLE`: `PIN <- ¬PIN`, at either of its two addresses (R153). -/
def Obligations.ToggleInvertsThePin : Prop :=
  ∀ s : State,
    (s.started = true → s.busy = true → s.upc = 5#4 ∨ s.upc = 9#4 →
      exec .toggle s = .next { s with pin := !s.pin, upc := s.upc + 1#4 })

/-- `ARM`: `TIE <- 1` (R154). -/
def Obligations.ArmEnablesTheExpiryInterrupt : Prop :=
  ∀ s : State,
    (UopReady .arm s → exec .arm s = .next { s with tie := true, upc := s.upc + 1#4 })

/-- `DISARM`: `TIE <- 0`, unconditionally (R155). -/
def Obligations.DisarmMasksTheExpiryInterrupt : Prop :=
  ∀ s : State,
    (UopReady .disarm s → exec .disarm s = .next { s with tie := false, upc := s.upc + 1#4 })

/-- `RETI`: `BUSY <- 0`, the scratch registers become unwritten, `UPC` becomes unspecified, nothing else changes but the
model's counter of free values (R185). -/
def Obligations.RetiEndsTheHandler : Prop :=
  ∀ s : State,
    (UopReady .reti s →
      ∃ u n, exec .reti s =
        .next { s with
          busy := false, upc := u, cur := none, code := none, mov := none, valid := none, drawIndex := n })

/-- A µop that is not the one a running handler fetches is refused (the model's choice of outcome, log 12; the condition
is the Enabled line of each µop's rule). -/
def Obligations.UopsAreRefusedElsewhere : Prop :=
  ∀ (u : Uop) (s : State), ¬UopReady u s → exec u.toInstr s = .refused .uopNotEnabled

/-! ### The movement table -/

/-- The zero entries of the table, no change and double change (R110, R113, R115, R116, R119, R120, R122, R125). -/
def Obligations.ZeroMovementEntries : Prop :=
  ∀ (s : State) (i : Instr) (p c : PhasePair),
    (i, p, c) ∈ [(Instr.tc_00_00, 0b00#2, 0b00#2), (.tc_00_11, 0b00#2, 0b11#2), (.tc_01_01, 0b01#2, 0b01#2),
      (.tc_01_10, 0b01#2, 0b10#2), (.tc_10_01, 0b10#2, 0b01#2), (.tc_10_10, 0b10#2, 0b10#2),
      (.tc_11_00, 0b11#2, 0b00#2), (.tc_11_11, 0b11#2, 0b11#2)] →
    UopReady .lookup s → s.prev = p → s.cur = some c →
    exec i s = .next { s with code := some (p ++ c), mov := some 0b00#2, upc := s.upc + 1#4 }

/-- The +1 entries of the table: the steps `00 → 10 → 11 → 01 → 00` (R112, R114, R121, R123). -/
def Obligations.PlusMovementEntries : Prop :=
  ∀ (s : State) (i : Instr) (p c : PhasePair),
    (i, p, c) ∈ [(Instr.tc_00_10, 0b00#2, 0b10#2), (.tc_01_00, 0b01#2, 0b00#2), (.tc_10_11, 0b10#2, 0b11#2),
      (.tc_11_01, 0b11#2, 0b01#2)] →
    UopReady .lookup s → s.prev = p → s.cur = some c →
    exec i s = .next { s with code := some (p ++ c), mov := some 0b01#2, upc := s.upc + 1#4 }

/-- The −1 entries of the table: the reverse steps (R111, R117, R118, R124). -/
def Obligations.MinusMovementEntries : Prop :=
  ∀ (s : State) (i : Instr) (p c : PhasePair),
    (i, p, c) ∈ [(Instr.tc_00_01, 0b00#2, 0b01#2), (.tc_01_11, 0b01#2, 0b11#2), (.tc_10_00, 0b10#2, 0b00#2),
      (.tc_11_10, 0b11#2, 0b10#2)] →
    UopReady .lookup s → s.prev = p → s.cur = some c →
    exec i s = .next { s with code := some (p ++ c), mov := some 0b11#2, upc := s.upc + 1#4 }

/-- `LOOKUP` is the table entry that its transition code selects, and no other entry is taken (R93, R102; the entries as
instructions are the model's choice, log 13). -/
def Obligations.LookupTakesTheSelectedEntry : Prop :=
  ∀ (s : State) (c : PhasePair) (k : TransCode), UopReady .lookup s → s.cur = some c →
    (k = s.prev ++ c → exec (decodeTransCode k) s = exec .lookup s) ∧
    (k ≠ s.prev ++ c → exec (decodeTransCode k) s = .refused .codeNotSelected)

/-- Every transition and its reverse have opposite movements (R126, second half): the entries of the two codes, taken
in any two states that select them, write negated movements. -/
def Obligations.ReverseTransitionsHaveOppositeMovements : Prop :=
  ∀ (s t s' t' : State) (p c : PhasePair), p ≠ c → s.prev = p → s.cur = some c → t.prev = c → t.cur = some p →
    exec .lookup s = .next s' → exec .lookup t = .next t' →
    ∃ m, s'.mov = some m ∧ t'.mov = some (-m)

/-! ### The events -/

/-- `RESET` as the first event: every register as R45 and R240 say, the draws and `UPC` unconstrained but for the count's
range. -/
def Obligations.ResetInitialisesTheBlock : Prop :=
  ∀ s : State, s.started = false →
    ∃ (t : Nat) (f pa pb : Bool) (u : Uaddr) (n : Nat), t ≤ s.cfg.maxCount ∧
      exec .reset s =
        .next
          { prev := BitVec.ofBool s.inA ++ BitVec.ofBool s.inB
            pmov := s.cfg.initPrevMovement.code
            cur := none, code := none, mov := none, valid := none
            pin := s.cfg.restLevel
            tie := false
            tov := f
            tcnt := t
            pendA := pa
            pendB := pb
            busy := false
            upc := u
            inA := s.inA
            inB := s.inB
            cfg := s.cfg
            started := true
            events := s.events
            drawIndex := n }

/-- A second `RESET` in a run is refused (R241). -/
def Obligations.SecondResetIsRefused : Prop :=
  ∀ (s t : State) (i : Instr), exec i s = .next t → exec .reset t = .refused .secondReset

/-- `INPUT a b`: a change of level sets the line's pending flag, an unchanged level leaves it, and the levels are the
new ones; nothing else changes (R186). -/
def Obligations.InputSetsPendingOnEdges : Prop :=
  ∀ (s : State) (a b : Bool), s.started = true →
    ∃ pa pb, exec (.input a b) s = .next { s with pendA := pa, pendB := pb, inA := a, inB := b } ∧
      (a ≠ s.inA → pa = true) ∧ (a = s.inA → pa = s.pendA) ∧ (b ≠ s.inB → pb = true) ∧ (b = s.inB → pb = s.pendB)

/-- `TICK`: at `P_MAX_COUNT` the count wraps to 0 and `TOV` is set, otherwise the count is one more and `TOV` as it was;
whatever `TIE`, `BUSY` and the Shaper's state (R156, R157). -/
def Obligations.TickCountsAndWraps : Prop :=
  ∀ s : State, s.started = true →
    (s.tcnt = s.cfg.maxCount → exec .tick s = .next { s with tcnt := 0, tov := true }) ∧
    (s.tcnt ≠ s.cfg.maxCount → exec .tick s = .next { s with tcnt := s.tcnt + 1 })

/-- `TAKE_PHASE s`: enabled exactly with no handler running and the source pending; it clears that flag only, sets
`BUSY`, goes to address 0 and marks the scratch registers unwritten (R204). -/
def Obligations.TakePhaseEntersTheHandler : Prop :=
  ∀ s : State, s.started = true →
    (s.busy = false → s.pendA = true →
      exec (.takePhase .a) s =
        .next { s with
          pendA := false, busy := true, upc := 0#4, cur := none, code := none, mov := none, valid := none }) ∧
    (s.busy = false → s.pendB = true →
      exec (.takePhase .b) s =
        .next { s with
          pendB := false, busy := true, upc := 0#4, cur := none, code := none, mov := none, valid := none }) ∧
    (s.busy = true ∨ s.pendA = false → exec (.takePhase .a) s = .refused .phaseNotEnabled) ∧
    (s.busy = true ∨ s.pendB = false → exec (.takePhase .b) s = .refused .phaseNotEnabled)

/-- `TAKE_TIMER`: enabled exactly with no handler running, the source enabled and an expiry pending; it clears `TOV`,
sets `BUSY` and goes to address 9 (R205). -/
def Obligations.TakeTimerEntersTheHandler : Prop :=
  ∀ s : State, s.started = true →
    (s.busy = false → s.tie = true → s.tov = true →
      exec .takeTimer s = .next { s with tov := false, busy := true, upc := 9#4 }) ∧
    (s.busy = true ∨ s.tie = false ∨ s.tov = false → exec .takeTimer s = .refused .timerNotEnabled)

/-- No event but `RESET` occurs before it (R90: a run is `RESET` followed by the other five; log 2). -/
def Obligations.EventsBeforeResetAreRefused : Prop :=
  ∀ (s : State) (i : Instr), s.started = false → i ≠ .reset → ∃ r, exec i s = .refused r

/-! ### Whole-machine rules -/

/-- While a handler runs no handler is dispatched, and the timer and the environment still act (R207). -/
def Obligations.HandlersAreNotPreempted : Prop :=
  ∀ s : State, s.started = true → s.busy = true →
    (∀ src, exec (.takePhase src) s = .refused .phaseNotEnabled) ∧
    exec .takeTimer s = .refused .timerNotEnabled ∧
    (∃ t, exec .tick s = .next t ∧ t.busy = true ∧ t.upc = s.upc) ∧
    ∀ a b, ∃ t, exec (.input a b) s = .next t ∧ t.busy = true ∧ t.upc = s.upc

/-- Right after reset: the Shaper is `IDLE` with the pin at the rest level, no handler runs, nothing is written to the
scratch registers, `PREV` is the pair on the lines and `PMOV` is `P_INIT_PREV_MOVEMENT`, 0 (R45; of the drawn
registers nothing is said). -/
def Obligations.ResetStateHasTheSpecValues : Prop :=
  State.reset.tie = false ∧ State.reset.pin = State.reset.cfg.restLevel ∧ State.reset.busy = false ∧
    Unwritten State.reset ∧ State.reset.prev = inPair State.reset ∧
    State.reset.pmov = State.reset.cfg.initPrevMovement.code ∧ State.reset.cfg.initPrevMovement = .zero ∧
    State.reset.started = true

/-- The invariant holds right after reset. -/
def Obligations.ResetStateMeetsTheInvariant : Prop := BlockInv State.reset

/-- Every step keeps the invariant, from every state that meets it. -/
def Obligations.EveryStepKeepsTheInvariant : Prop :=
  ∀ s t : State, BlockInv s → step s = .next t → BlockInv t

/-- `RESET` establishes the invariant from any state before it, whatever it draws. -/
def Obligations.ResetEstablishesTheInvariant : Prop :=
  ∀ s t : State, s.started = false → exec .reset s = .next t → BlockInv t

/-- No fault is reachable: no instruction faults in a state of the invariant, nor does a step, nor any number of steps
(R188). -/
def Obligations.NoFaultIsReachable : Prop :=
  ∀ s : State, BlockInv s →
    (∀ i f, exec i s ≠ .fault f) ∧ ∀ (k : Nat) (f : Fault), runSteps k s ≠ .fault f

/-- No event changes the configuration or the events still to come, and after any of them the run has begun (no runtime
configuration, R6; the model's own fields, logs 1 to 3). -/
def Obligations.ConfigurationIsFixed : Prop :=
  ∀ (i : Instr) (s t : State), exec i s = .next t → t.cfg = s.cfg ∧ t.events = s.events ∧ t.started = true

/-- The writers of the Shaper's and the timer's registers: `PIN` only `TOGGLE` and `RESET` (R30), `TIE` only `ARM`,
`DISARM` and `RESET` (R31, R150), `TOV` only `TICK`, `CLRFLAG`, `TAKE_TIMER` and `RESET` (R32), `TCNT` only `LOAD`,
`TICK` and `RESET` (R33). -/
def Obligations.ShaperRegisterWriters : Prop :=
  ∀ (i : Instr) (s t : State), exec i s = .next t → i ≠ .reset →
    (executedUop i s ≠ some .toggle → t.pin = s.pin) ∧
    (executedUop i s ≠ some .arm → executedUop i s ≠ some .disarm → t.tie = s.tie) ∧
    (executedUop i s ≠ some .clrflag → i ≠ .tick → i ≠ .takeTimer → t.tov = s.tov) ∧
    (executedUop i s ≠ some .load → i ≠ .tick → t.tcnt = s.tcnt)

/-- The writers of the Decoder's, the environment's and the interrupt registers: `PREV` and `PMOV` only `UPDATE` and
`RESET` (R20, R21), the lines only `INPUT` (R38), a pending flag is set only by `INPUT` and cleared only by the
`TAKE_PHASE` of its source (R203), `BUSY` only by the dispatches and `RETI` (R36). -/
def Obligations.DecoderAndInterruptWriters : Prop :=
  ∀ (i : Instr) (s t : State), exec i s = .next t → i ≠ .reset →
    (executedUop i s ≠ some .update → t.prev = s.prev ∧ t.pmov = s.pmov) ∧
    ((∀ a b, i ≠ .input a b) → t.inA = s.inA ∧ t.inB = s.inB ∧
      (t.pendA = true → s.pendA = true) ∧ (t.pendB = true → s.pendB = true)) ∧
    (i ≠ .takePhase .a → s.pendA = true → t.pendA = true) ∧
    (i ≠ .takePhase .b → s.pendB = true → t.pendB = true) ∧
    (i ≠ .takeTimer → (∀ c, i ≠ .takePhase c) → t.busy = true → s.busy = true) ∧
    (executedUop i s ≠ some .reti → s.busy = true → t.busy = true)

/-- Pin parity: along any run, `PIN` differs from where it stood exactly when an odd number of `TOGGLE`s was executed
(R160). -/
def Obligations.PinIsTheParityOfToggles : Prop :=
  ∀ (k : Nat) (s t : State), s.started = true → runSteps k s = .next t →
    t.pin = (s.pin ^^ decide (toggleCount k s % 2 = 1))

/-- A handler run ends within 9 `STEP`s: a dispatch leaves at most 9, each `STEP` leaves fewer, and the events that may
fall between leave as many (R182). -/
def Obligations.HandlerRunsEndWithinNineSteps : Prop :=
  (∀ (s t : State) (src : PhaseSource), exec (.takePhase src) s = .next t → stepsLeft t = 9) ∧
  (∀ s t : State, exec .takeTimer s = .next t → stepsLeft t = 3) ∧
  (∀ s t : State, BlockInv s → exec .step s = .next t → stepsLeft t < stepsLeft s) ∧
  (∀ (s t : State) (i : Instr), i = .tick ∨ (∃ a b, i = .input a b) → exec i s = .next t →
    stepsLeft t = stepsLeft s) ∧
  ∀ s : State, BlockInv s → (stepsLeft s = 0 ↔ s.busy = false)

/-- After `UPDATE`, `PREV` is the run's `CUR`, which is bits [1:0] of its `CODE` (R134). -/
def Obligations.PrevIsTheLowPairOfTheCode : Prop :=
  ∀ s t : State, BlockInv s → exec .update s = .next t →
    ∃ k, t.code = some k ∧ t.prev = k.extractLsb' 0 2 ∧ t.cur = some t.prev

/-- From a quiescent state only `INPUT` and `TICK` are enabled (R189). -/
def Obligations.QuiescentEnablesOnlyInputAndTick : Prop :=
  ∀ s : State, s.started = true → quiescent s = true →
    ∀ i : Instr, (∃ t, exec i s = .next t) ↔ i = .tick ∨ ∃ a b, i = .input a b

/-- The Shaper reads no Decoder register: whatever the Decoder's registers are, its µops do the same to the rest
(R164). -/
def Obligations.ShaperIgnoresTheDecoder : Prop :=
  ∀ (u : Uop) (s t : State) (prev : PhasePair) (pmov : MovementCode) (cur : Option PhasePair)
    (code : Option TransCode) (mov : Option MovementCode) (valid : Option Bool),
    u ∈ [Uop.clrflag, .load, .toggle, .arm, .disarm] →
    exec u.toInstr s = .next t →
    exec u.toInstr { s with prev := prev, pmov := pmov, cur := cur, code := code, mov := mov, valid := valid } =
      .next { t with prev := prev, pmov := pmov, cur := cur, code := code, mov := mov, valid := valid }

/-- Swapping the two phases changes no pulse: a step of the swapped block is the swap of the step, so `PIN`, `TIE` and
the timer are the same along both runs (R132, first change). -/
def Obligations.SwappingThePhasesChangesNoPulse : Prop :=
  (∀ s : State, s.started = true → step (swapPhases s) = swapResult (step s)) ∧
  ∀ (k : Nat) (s t : State), s.started = true → runSteps k s = .next t →
    ∃ t', runSteps k (swapPhases s) = .next t' ∧ t'.pin = t.pin ∧ t'.tie = t.tie ∧ t'.tcnt = t.tcnt ∧ t'.tov = t.tov

/-! ### Runs -/

/-- A phase-change run whose events are its dispatch and its `STEP`s alone, with no `INPUT` and no `TICK` between them,
is the atomic function of R190: it looks up the transition, arms if and only if the movement equals the previous one,
and records the transition. (R190 also admits an `INPUT` after the `SAMPLE`; that case is not stated here.) -/
def Obligations.PhaseHandlerComposite : Prop :=
  ∀ (s : State) (src : PhaseSource), s.started = true → s.busy = false → pending src s = true → s.pmov ≠ 0b10#2 →
    (((tableRead (s.prev ++ inPair s)).code = s.pmov →
      ∃ u n, execAll (.takePhase src :: List.replicate 9 .step) s =
        some { clearPending src s with
          prev := inPair s, tov := false, tcnt := s.cfg.loadValue, pin := !s.pin, tie := true
          cur := none, code := none, mov := none, valid := none, upc := u, drawIndex := n }) ∧
    ((tableRead (s.prev ++ inPair s)).code ≠ s.pmov →
      ∃ u n, execAll (.takePhase src :: List.replicate 5 .step) s =
        some { clearPending src s with
          prev := inPair s, pmov := (tableRead (s.prev ++ inPair s)).code
          cur := none, code := none, mov := none, valid := none, upc := u, drawIndex := n }))

/-- A timer-expiry run is `TOV <- 0`, `PIN <- ¬PIN`, `TIE <- 0`, with no state read first (R162, R191). -/
def Obligations.TimerHandlerComposite : Prop :=
  ∀ s : State, s.started = true → s.busy = false → s.tie = true → s.tov = true →
    ∃ u n, execAll [.takeTimer, .step, .step, .step] s =
      some { s with
        tov := false, pin := !s.pin, tie := false
        cur := none, code := none, mov := none, valid := none, upc := u, drawIndex := n }

/-- Ticks to expiry: after `LOAD`, with only ticks and input events following, the count is `P_LOAD_VALUE` plus the
ticks until the `N`-th tick, `N = P_MAX_COUNT + 1 − P_LOAD_VALUE`, which is the first to set `TOV` (R158). -/
def Obligations.TicksToExpiry : Prop :=
  ∀ (is : List Instr) (s t : State), s.started = true → s.tcnt = s.cfg.loadValue →
    (∀ i ∈ is, i = .tick ∨ ∃ a b, i = .input a b) → execAll is s = some t →
    (is.count .tick < s.cfg.maxCount + 1 - s.cfg.loadValue →
      t.tcnt = s.cfg.loadValue + is.count .tick ∧ t.tov = s.tov) ∧
    (is.count .tick = s.cfg.maxCount + 1 - s.cfg.loadValue → t.tcnt = 0 ∧ t.tov = true)

/-- With the load value of the formula, the ticks to expiry are `ceil(W / T) + 1`, and one tick fewer already lasts no
less than `W`: the pulse is never narrower (R158, R159). -/
def Obligations.LoadFormulaNeverNarrowsThePulse : Prop :=
  ∀ (p : Params) (w t : Nat), 0 < t → (p.loadValue : Int) = loadFormula p.maxCount w t →
    p.maxCount + 1 - p.loadValue = ceilDiv w t + 1 ∧ w ≤ (p.maxCount - p.loadValue) * t ∧
      (0 < w → (p.maxCount - p.loadValue - 1) * t < w)

/-- A pending expiry is not lost: while `TIE = 1` and `TOV = 1` and no handler runs, `TAKE_TIMER` stays enabled through
any ticks and input events (R162). -/
def Obligations.PendingExpiryStaysEnabled : Prop :=
  ∀ (is : List Instr) (s t : State), s.started = true → s.busy = false → s.tie = true → s.tov = true →
    (∀ i ∈ is, i = .tick ∨ ∃ a b, i = .input a b) → execAll is s = some t →
    ∃ t', exec .takeTimer t = .next t' ∧ t'.upc = 9#4 ∧ t'.tov = false

/-- Once armed a pulse can complete: from every armed state of the invariant in which no handler runs, there is a run of
at most `P_MAX_COUNT + 1` ticks and a timer-expiry run that toggles the pin once and disarms. R163 says with fairness
that such a run occurs; the bounded form, without fairness, is the model's choice, log 9. -/
def Obligations.ArmedPulseCanComplete : Prop :=
  ∀ s : State, BlockInv s → s.busy = false → s.tie = true →
    ∃ k t, k ≤ s.cfg.maxCount + 1 ∧
      execAll (List.replicate k .tick ++ [.takeTimer, .step, .step, .step]) s = some t ∧
      t.pin = (!s.pin) ∧ t.tie = false ∧ t.busy = false

/-- The stale-expiry window: a tick that wraps the count between `CLRFLAG` and `LOAD` leaves `TAKE_TIMER` enabled right
after `RETI`, and its run toggles the pin back with no further tick (R250). -/
def Obligations.StaleExpiryWindow : Prop :=
  ∀ s : State, BlockInv s → s.busy = true → s.upc = 4#4 → s.tcnt = s.cfg.maxCount →
    ∃ t t', execAll [.tick, .step, .step, .step, .step, .step] s = some t ∧
      t.busy = false ∧ t.tie = true ∧ t.tov = true ∧ t.pin = (!s.pin) ∧ t.tcnt = s.cfg.loadValue ∧
      execAll [.takeTimer, .step, .step, .step] t = some t' ∧ t'.pin = s.pin ∧ t'.tie = false

/-- A re-trigger: a validated edge while armed cancels the pending expiry, restarts the count, makes one more output
transition and leaves `TIE = 1` (R161): the arm sequence from any armed state at its first µop. -/
def Obligations.RetriggerRestartsThePulse : Prop :=
  ∀ s : State, s.started = true → s.busy = true → s.upc = 3#4 → s.tie = true →
    execAll [.step, .step, .step, .step] s =
      some { s with tov := false, tcnt := s.cfg.loadValue, pin := !s.pin, upc := 7#4 }

/-- The validation sequence law for a program of edges, seen at its end: the pin is what it was exclusive-or the parity
of the number of invocations whose movement equals the movement before it (R130; the expansion of `EDGE` is R92). An
`EDGE` moves one line, so no invocation here has movement 0; an invocation with movement 0 is in PhaseHandlerComposite. -/
def Obligations.EdgeProgramsLeaveTheParityOfValidatedEdges : Prop :=
  ∀ (levels : List (Bool × Bool)) (s t : State) (ws : List EventWord),
    BlockInv s → s.busy = false → s.pendA = false → s.pendB = false → s.prev = inPair s →
    assemble (edges levels) s = some (ws, t) →
    t.pin = (s.pin ^^
      decide (validatedCount s.prev s.pmov (levels.map fun l => phasePair l.1 l.2) % 2 = 1))

/-- `RUNPHASE s` is `TAKE_PHASE s` and 5 `STEP`s where the edge is not validated, 9 where it is (R92, R182). -/
def Obligations.RunPhaseExpandsToFiveOrNineSteps : Prop :=
  ∀ (s : State) (src : PhaseSource), s.started = true → s.busy = false → pending src s = true → s.pmov ≠ 0b10#2 →
    expand (.runPhase src) s =
      some (.takePhase src ::
        List.replicate (if (tableRead (s.prev ++ inPair s)).code = s.pmov then 9 else 5) .step)

/-! ### Configurations -/

/-- A configuration with `P_MAX_COUNT < 1`, `P_LOAD_VALUE < 0` or `P_LOAD_VALUE > P_MAX_COUNT` is refused, and every
other gives a machine with its parameters (R10). -/
def Obligations.IllFormedConfigurationsAreRefused : Prop :=
  ∀ r : RawParams,
    (r.maxCount < 1 ∨ r.loadValue < 0 ∨ r.loadValue > r.maxCount → Params.ofRaw r = none) ∧
    (¬(r.maxCount < 1 ∨ r.loadValue < 0 ∨ r.loadValue > r.maxCount) →
      ∃ p : Params, Params.ofRaw r = some p ∧ (p.maxCount : Int) = r.maxCount ∧ (p.loadValue : Int) = r.loadValue ∧
        p.restLevel = r.restLevel ∧ p.initPrevMovement = r.initPrevMovement)

/-! ### The observation of a run -/

/-- The observation of a run has one entry for each step, in order: the value of `PIN` after the step, and the step's
event where that value is new or the event is `RESET` (R189; `RESET` is log 23). -/
def Obligations.ObservationIsThePinTrace : Prop :=
  ∀ (k : Nat) (s t : State), runSteps k s = .next t →
    (observation k s).length = k ∧
    ∀ j, j < k → ∃ (w : EventWord) (i : Instr) (u v : State),
      runSteps j s = .next u ∧ runSteps (j + 1) s = .next v ∧ s.events[j]? = some w ∧ decodeEvent w = .ok i ∧
      (observation k s)[j]? = some ⟨v.pin, if i = .reset ∨ v.pin ≠ u.pin then some i else none⟩

/-- The events that change the output after `RESET` are the `STEP`s that execute `TOGGLE`, each of them once (R153, R189;
the only other writer of `PIN` is `RESET`, R30). -/
def Obligations.OutputChangesAreTheToggles : Prop :=
  ∀ (k : Nat) (s t : State), s.started = true → runSteps k s = .next t →
    (∀ o ∈ observation k s, o.changedBy = none ∨ o.changedBy = some .step) ∧
    ((observation k s).filter fun o => o.changedBy.isSome).length = toggleCount k s

/-- There is no end of a run: every finite run is the beginning of an infinite one, and what an infinite run shows is
what each of its finite parts shows (R189). Before `RESET` the run must hold `RESET` itself (log 2). -/
def Obligations.EveryRunGoesOn : Prop :=
  (∀ (ws : List EventWord) (s : State), s.started = true ∨ ws ≠ [] → FiniteRun ws s →
    ∃ es, InfiniteRun es s ∧ firstEvents es ws.length = ws) ∧
  ∀ (es : Nat → EventWord) (s : State), InfiniteRun es s →
    ∀ n k, k < n →
      (observationAt es s k).isSome = true ∧
        (observation n (placeRun (firstEvents es n) s))[k]? = observationAt es s k
end

