-- ==== Sys2Proof/Laws/State.lean ====
section
/-! SUPPORT. One lemma per field per update of State: what each shared update leaves in each register. -/

namespace Sys2Proof.Machine

/-! ### `advance` -/

@[simp] theorem advance_prev (s : State) : (advance s).prev = s.prev := rfl
@[simp] theorem advance_pmov (s : State) : (advance s).pmov = s.pmov := rfl
@[simp] theorem advance_cur (s : State) : (advance s).cur = s.cur := rfl
@[simp] theorem advance_code (s : State) : (advance s).code = s.code := rfl
@[simp] theorem advance_mov (s : State) : (advance s).mov = s.mov := rfl
@[simp] theorem advance_valid (s : State) : (advance s).valid = s.valid := rfl
@[simp] theorem advance_pin (s : State) : (advance s).pin = s.pin := rfl
@[simp] theorem advance_tie (s : State) : (advance s).tie = s.tie := rfl
@[simp] theorem advance_tov (s : State) : (advance s).tov = s.tov := rfl
@[simp] theorem advance_tcnt (s : State) : (advance s).tcnt = s.tcnt := rfl
@[simp] theorem advance_pendA (s : State) : (advance s).pendA = s.pendA := rfl
@[simp] theorem advance_pendB (s : State) : (advance s).pendB = s.pendB := rfl
@[simp] theorem advance_busy (s : State) : (advance s).busy = s.busy := rfl
@[simp] theorem advance_upc (s : State) : (advance s).upc = s.upc + 1#4 := rfl
@[simp] theorem advance_inA (s : State) : (advance s).inA = s.inA := rfl
@[simp] theorem advance_inB (s : State) : (advance s).inB = s.inB := rfl
@[simp] theorem advance_cfg (s : State) : (advance s).cfg = s.cfg := rfl
@[simp] theorem advance_started (s : State) : (advance s).started = s.started := rfl
@[simp] theorem advance_events (s : State) : (advance s).events = s.events := rfl
@[simp] theorem advance_drawIndex (s : State) : (advance s).drawIndex = s.drawIndex := rfl

/-! ### `clearScratch` -/

@[simp] theorem clearScratch_prev (s : State) : (clearScratch s).prev = s.prev := rfl
@[simp] theorem clearScratch_pmov (s : State) : (clearScratch s).pmov = s.pmov := rfl
@[simp] theorem clearScratch_cur (s : State) : (clearScratch s).cur = none := rfl
@[simp] theorem clearScratch_code (s : State) : (clearScratch s).code = none := rfl
@[simp] theorem clearScratch_mov (s : State) : (clearScratch s).mov = none := rfl
@[simp] theorem clearScratch_valid (s : State) : (clearScratch s).valid = none := rfl
@[simp] theorem clearScratch_pin (s : State) : (clearScratch s).pin = s.pin := rfl
@[simp] theorem clearScratch_tie (s : State) : (clearScratch s).tie = s.tie := rfl
@[simp] theorem clearScratch_tov (s : State) : (clearScratch s).tov = s.tov := rfl
@[simp] theorem clearScratch_tcnt (s : State) : (clearScratch s).tcnt = s.tcnt := rfl
@[simp] theorem clearScratch_pendA (s : State) : (clearScratch s).pendA = s.pendA := rfl
@[simp] theorem clearScratch_pendB (s : State) : (clearScratch s).pendB = s.pendB := rfl
@[simp] theorem clearScratch_busy (s : State) : (clearScratch s).busy = s.busy := rfl
@[simp] theorem clearScratch_upc (s : State) : (clearScratch s).upc = s.upc := rfl
@[simp] theorem clearScratch_inA (s : State) : (clearScratch s).inA = s.inA := rfl
@[simp] theorem clearScratch_inB (s : State) : (clearScratch s).inB = s.inB := rfl
@[simp] theorem clearScratch_cfg (s : State) : (clearScratch s).cfg = s.cfg := rfl
@[simp] theorem clearScratch_started (s : State) : (clearScratch s).started = s.started := rfl
@[simp] theorem clearScratch_events (s : State) : (clearScratch s).events = s.events := rfl
@[simp] theorem clearScratch_drawIndex (s : State) : (clearScratch s).drawIndex = s.drawIndex := rfl

/-! ### `enterHandler` -/

@[simp] theorem enterHandler_prev (entry : Uaddr) (s : State) : (enterHandler entry s).prev = s.prev := rfl
@[simp] theorem enterHandler_pmov (entry : Uaddr) (s : State) : (enterHandler entry s).pmov = s.pmov := rfl
@[simp] theorem enterHandler_cur (entry : Uaddr) (s : State) : (enterHandler entry s).cur = s.cur := rfl
@[simp] theorem enterHandler_code (entry : Uaddr) (s : State) : (enterHandler entry s).code = s.code := rfl
@[simp] theorem enterHandler_mov (entry : Uaddr) (s : State) : (enterHandler entry s).mov = s.mov := rfl
@[simp] theorem enterHandler_valid (entry : Uaddr) (s : State) : (enterHandler entry s).valid = s.valid := rfl
@[simp] theorem enterHandler_pin (entry : Uaddr) (s : State) : (enterHandler entry s).pin = s.pin := rfl
@[simp] theorem enterHandler_tie (entry : Uaddr) (s : State) : (enterHandler entry s).tie = s.tie := rfl
@[simp] theorem enterHandler_tov (entry : Uaddr) (s : State) : (enterHandler entry s).tov = s.tov := rfl
@[simp] theorem enterHandler_tcnt (entry : Uaddr) (s : State) : (enterHandler entry s).tcnt = s.tcnt := rfl
@[simp] theorem enterHandler_pendA (entry : Uaddr) (s : State) : (enterHandler entry s).pendA = s.pendA := rfl
@[simp] theorem enterHandler_pendB (entry : Uaddr) (s : State) : (enterHandler entry s).pendB = s.pendB := rfl
@[simp] theorem enterHandler_busy (entry : Uaddr) (s : State) : (enterHandler entry s).busy = true := rfl
@[simp] theorem enterHandler_upc (entry : Uaddr) (s : State) : (enterHandler entry s).upc = entry := rfl
@[simp] theorem enterHandler_inA (entry : Uaddr) (s : State) : (enterHandler entry s).inA = s.inA := rfl
@[simp] theorem enterHandler_inB (entry : Uaddr) (s : State) : (enterHandler entry s).inB = s.inB := rfl
@[simp] theorem enterHandler_cfg (entry : Uaddr) (s : State) : (enterHandler entry s).cfg = s.cfg := rfl
@[simp] theorem enterHandler_started (entry : Uaddr) (s : State) : (enterHandler entry s).started = s.started := rfl
@[simp] theorem enterHandler_events (entry : Uaddr) (s : State) : (enterHandler entry s).events = s.events := rfl
@[simp] theorem enterHandler_drawIndex (entry : Uaddr) (s : State) : (enterHandler entry s).drawIndex = s.drawIndex := rfl

/-! ### `leaveHandler` -/

@[simp] theorem leaveHandler_prev (s : State) : (leaveHandler s).prev = s.prev := rfl
@[simp] theorem leaveHandler_pmov (s : State) : (leaveHandler s).pmov = s.pmov := rfl
@[simp] theorem leaveHandler_cur (s : State) : (leaveHandler s).cur = none := rfl
@[simp] theorem leaveHandler_code (s : State) : (leaveHandler s).code = none := rfl
@[simp] theorem leaveHandler_mov (s : State) : (leaveHandler s).mov = none := rfl
@[simp] theorem leaveHandler_valid (s : State) : (leaveHandler s).valid = none := rfl
@[simp] theorem leaveHandler_pin (s : State) : (leaveHandler s).pin = s.pin := rfl
@[simp] theorem leaveHandler_tie (s : State) : (leaveHandler s).tie = s.tie := rfl
@[simp] theorem leaveHandler_tov (s : State) : (leaveHandler s).tov = s.tov := rfl
@[simp] theorem leaveHandler_tcnt (s : State) : (leaveHandler s).tcnt = s.tcnt := rfl
@[simp] theorem leaveHandler_pendA (s : State) : (leaveHandler s).pendA = s.pendA := rfl
@[simp] theorem leaveHandler_pendB (s : State) : (leaveHandler s).pendB = s.pendB := rfl
@[simp] theorem leaveHandler_busy (s : State) : (leaveHandler s).busy = false := rfl
@[simp] theorem leaveHandler_upc (s : State) : (leaveHandler s).upc = Config.freeUpc s.drawIndex := rfl
@[simp] theorem leaveHandler_inA (s : State) : (leaveHandler s).inA = s.inA := rfl
@[simp] theorem leaveHandler_inB (s : State) : (leaveHandler s).inB = s.inB := rfl
@[simp] theorem leaveHandler_cfg (s : State) : (leaveHandler s).cfg = s.cfg := rfl
@[simp] theorem leaveHandler_started (s : State) : (leaveHandler s).started = s.started := rfl
@[simp] theorem leaveHandler_events (s : State) : (leaveHandler s).events = s.events := rfl
@[simp] theorem leaveHandler_drawIndex (s : State) : (leaveHandler s).drawIndex = s.drawIndex + 1 := rfl

/-! ### `writeEntry` -/

@[simp] theorem writeEntry_prev (c : TransCode) (s : State) : (writeEntry c s).prev = s.prev := rfl
@[simp] theorem writeEntry_pmov (c : TransCode) (s : State) : (writeEntry c s).pmov = s.pmov := rfl
@[simp] theorem writeEntry_cur (c : TransCode) (s : State) : (writeEntry c s).cur = s.cur := rfl
@[simp] theorem writeEntry_code (c : TransCode) (s : State) : (writeEntry c s).code = some c := rfl
@[simp] theorem writeEntry_mov (c : TransCode) (s : State) : (writeEntry c s).mov = some (tableRead c).code := rfl
@[simp] theorem writeEntry_valid (c : TransCode) (s : State) : (writeEntry c s).valid = s.valid := rfl
@[simp] theorem writeEntry_pin (c : TransCode) (s : State) : (writeEntry c s).pin = s.pin := rfl
@[simp] theorem writeEntry_tie (c : TransCode) (s : State) : (writeEntry c s).tie = s.tie := rfl
@[simp] theorem writeEntry_tov (c : TransCode) (s : State) : (writeEntry c s).tov = s.tov := rfl
@[simp] theorem writeEntry_tcnt (c : TransCode) (s : State) : (writeEntry c s).tcnt = s.tcnt := rfl
@[simp] theorem writeEntry_pendA (c : TransCode) (s : State) : (writeEntry c s).pendA = s.pendA := rfl
@[simp] theorem writeEntry_pendB (c : TransCode) (s : State) : (writeEntry c s).pendB = s.pendB := rfl
@[simp] theorem writeEntry_busy (c : TransCode) (s : State) : (writeEntry c s).busy = s.busy := rfl
@[simp] theorem writeEntry_upc (c : TransCode) (s : State) : (writeEntry c s).upc = s.upc + 1#4 := rfl
@[simp] theorem writeEntry_inA (c : TransCode) (s : State) : (writeEntry c s).inA = s.inA := rfl
@[simp] theorem writeEntry_inB (c : TransCode) (s : State) : (writeEntry c s).inB = s.inB := rfl
@[simp] theorem writeEntry_cfg (c : TransCode) (s : State) : (writeEntry c s).cfg = s.cfg := rfl
@[simp] theorem writeEntry_started (c : TransCode) (s : State) : (writeEntry c s).started = s.started := rfl
@[simp] theorem writeEntry_events (c : TransCode) (s : State) : (writeEntry c s).events = s.events := rfl
@[simp] theorem writeEntry_drawIndex (c : TransCode) (s : State) : (writeEntry c s).drawIndex = s.drawIndex := rfl

/-! ### `resetWith` -/

@[simp] theorem resetWith_prev (d : ResetDraws) (s : State) : (resetWith d s).prev = inPair s := rfl
@[simp] theorem resetWith_pmov (d : ResetDraws) (s : State) : (resetWith d s).pmov = s.cfg.initPrevMovement.code := rfl
@[simp] theorem resetWith_cur (d : ResetDraws) (s : State) : (resetWith d s).cur = none := rfl
@[simp] theorem resetWith_code (d : ResetDraws) (s : State) : (resetWith d s).code = none := rfl
@[simp] theorem resetWith_mov (d : ResetDraws) (s : State) : (resetWith d s).mov = none := rfl
@[simp] theorem resetWith_valid (d : ResetDraws) (s : State) : (resetWith d s).valid = none := rfl
@[simp] theorem resetWith_pin (d : ResetDraws) (s : State) : (resetWith d s).pin = s.cfg.restLevel := rfl
@[simp] theorem resetWith_tie (d : ResetDraws) (s : State) : (resetWith d s).tie = false := rfl
@[simp] theorem resetWith_tov (d : ResetDraws) (s : State) : (resetWith d s).tov = d.f := rfl
@[simp] theorem resetWith_tcnt (d : ResetDraws) (s : State) : (resetWith d s).tcnt = d.t := rfl
@[simp] theorem resetWith_pendA (d : ResetDraws) (s : State) : (resetWith d s).pendA = d.pa := rfl
@[simp] theorem resetWith_pendB (d : ResetDraws) (s : State) : (resetWith d s).pendB = d.pb := rfl
@[simp] theorem resetWith_busy (d : ResetDraws) (s : State) : (resetWith d s).busy = false := rfl
@[simp] theorem resetWith_upc (d : ResetDraws) (s : State) : (resetWith d s).upc = Config.freeUpc s.drawIndex := rfl
@[simp] theorem resetWith_inA (d : ResetDraws) (s : State) : (resetWith d s).inA = s.inA := rfl
@[simp] theorem resetWith_inB (d : ResetDraws) (s : State) : (resetWith d s).inB = s.inB := rfl
@[simp] theorem resetWith_cfg (d : ResetDraws) (s : State) : (resetWith d s).cfg = s.cfg := rfl
@[simp] theorem resetWith_started (d : ResetDraws) (s : State) : (resetWith d s).started = true := rfl
@[simp] theorem resetWith_events (d : ResetDraws) (s : State) : (resetWith d s).events = s.events := rfl
@[simp] theorem resetWith_drawIndex (d : ResetDraws) (s : State) : (resetWith d s).drawIndex = s.drawIndex + 1 := rfl

/-! ### `clearPending` -/

@[simp] theorem clearPending_prev (src : PhaseSource) (s : State) : (clearPending src s).prev = s.prev := by
  cases src <;> rfl
@[simp] theorem clearPending_pmov (src : PhaseSource) (s : State) : (clearPending src s).pmov = s.pmov := by
  cases src <;> rfl
@[simp] theorem clearPending_cur (src : PhaseSource) (s : State) : (clearPending src s).cur = s.cur := by
  cases src <;> rfl
@[simp] theorem clearPending_code (src : PhaseSource) (s : State) : (clearPending src s).code = s.code := by
  cases src <;> rfl
@[simp] theorem clearPending_mov (src : PhaseSource) (s : State) : (clearPending src s).mov = s.mov := by
  cases src <;> rfl
@[simp] theorem clearPending_valid (src : PhaseSource) (s : State) : (clearPending src s).valid = s.valid := by
  cases src <;> rfl
@[simp] theorem clearPending_pin (src : PhaseSource) (s : State) : (clearPending src s).pin = s.pin := by
  cases src <;> rfl
@[simp] theorem clearPending_tie (src : PhaseSource) (s : State) : (clearPending src s).tie = s.tie := by
  cases src <;> rfl
@[simp] theorem clearPending_tov (src : PhaseSource) (s : State) : (clearPending src s).tov = s.tov := by
  cases src <;> rfl
@[simp] theorem clearPending_tcnt (src : PhaseSource) (s : State) : (clearPending src s).tcnt = s.tcnt := by
  cases src <;> rfl
@[simp] theorem clearPending_busy (src : PhaseSource) (s : State) : (clearPending src s).busy = s.busy := by
  cases src <;> rfl
@[simp] theorem clearPending_upc (src : PhaseSource) (s : State) : (clearPending src s).upc = s.upc := by
  cases src <;> rfl
@[simp] theorem clearPending_inA (src : PhaseSource) (s : State) : (clearPending src s).inA = s.inA := by
  cases src <;> rfl
@[simp] theorem clearPending_inB (src : PhaseSource) (s : State) : (clearPending src s).inB = s.inB := by
  cases src <;> rfl
@[simp] theorem clearPending_cfg (src : PhaseSource) (s : State) : (clearPending src s).cfg = s.cfg := by
  cases src <;> rfl
@[simp] theorem clearPending_started (src : PhaseSource) (s : State) : (clearPending src s).started = s.started := by
  cases src <;> rfl
@[simp] theorem clearPending_events (src : PhaseSource) (s : State) : (clearPending src s).events = s.events := by
  cases src <;> rfl
@[simp] theorem clearPending_drawIndex (src : PhaseSource) (s : State) : (clearPending src s).drawIndex = s.drawIndex := by
  cases src <;> rfl
@[simp] theorem clearPending_a_pendA (s : State) : (clearPending .a s).pendA = false := rfl
@[simp] theorem clearPending_a_pendB (s : State) : (clearPending .a s).pendB = s.pendB := rfl
@[simp] theorem clearPending_b_pendA (s : State) : (clearPending .b s).pendA = s.pendA := rfl
@[simp] theorem clearPending_b_pendB (s : State) : (clearPending .b s).pendB = false := rfl

/-! ### `placeRun` -/

@[simp] theorem placeRun_prev (ws : List EventWord) (s : State) : (placeRun ws s).prev = s.prev := rfl
@[simp] theorem placeRun_pmov (ws : List EventWord) (s : State) : (placeRun ws s).pmov = s.pmov := rfl
@[simp] theorem placeRun_cur (ws : List EventWord) (s : State) : (placeRun ws s).cur = s.cur := rfl
@[simp] theorem placeRun_code (ws : List EventWord) (s : State) : (placeRun ws s).code = s.code := rfl
@[simp] theorem placeRun_mov (ws : List EventWord) (s : State) : (placeRun ws s).mov = s.mov := rfl
@[simp] theorem placeRun_valid (ws : List EventWord) (s : State) : (placeRun ws s).valid = s.valid := rfl
@[simp] theorem placeRun_pin (ws : List EventWord) (s : State) : (placeRun ws s).pin = s.pin := rfl
@[simp] theorem placeRun_tie (ws : List EventWord) (s : State) : (placeRun ws s).tie = s.tie := rfl
@[simp] theorem placeRun_tov (ws : List EventWord) (s : State) : (placeRun ws s).tov = s.tov := rfl
@[simp] theorem placeRun_tcnt (ws : List EventWord) (s : State) : (placeRun ws s).tcnt = s.tcnt := rfl
@[simp] theorem placeRun_pendA (ws : List EventWord) (s : State) : (placeRun ws s).pendA = s.pendA := rfl
@[simp] theorem placeRun_pendB (ws : List EventWord) (s : State) : (placeRun ws s).pendB = s.pendB := rfl
@[simp] theorem placeRun_busy (ws : List EventWord) (s : State) : (placeRun ws s).busy = s.busy := rfl
@[simp] theorem placeRun_upc (ws : List EventWord) (s : State) : (placeRun ws s).upc = s.upc := rfl
@[simp] theorem placeRun_inA (ws : List EventWord) (s : State) : (placeRun ws s).inA = s.inA := rfl
@[simp] theorem placeRun_inB (ws : List EventWord) (s : State) : (placeRun ws s).inB = s.inB := rfl
@[simp] theorem placeRun_cfg (ws : List EventWord) (s : State) : (placeRun ws s).cfg = s.cfg := rfl
@[simp] theorem placeRun_started (ws : List EventWord) (s : State) : (placeRun ws s).started = s.started := rfl
@[simp] theorem placeRun_events (ws : List EventWord) (s : State) : (placeRun ws s).events = ws := rfl
@[simp] theorem placeRun_drawIndex (ws : List EventWord) (s : State) : (placeRun ws s).drawIndex = s.drawIndex := rfl

end Sys2Proof.Machine
end

