-- ==== Sys2Proof/Laws/Ops.lean ====
section
/-! SUPPORT. The laws of the shared operations: what each can do, said once, for the proofs to cite. -/

namespace Sys2Proof.Machine

/-! ### Movements (spec/30_encoding.md R82) -/

@[simp] theorem ofCode_code (m : Movement) : Movement.ofCode m.code = some m := by cases m <;> decide

theorem code_inj {m p : Movement} : m.code = p.code ↔ m = p := by cases m <;> cases p <;> decide

theorem toInt_inj {m p : Movement} : m.toInt = p.toInt ↔ m = p := by cases m <;> cases p <;> decide

theorem code_ne_bad (m : Movement) : m.code ≠ 0b10#2 := by cases m <;> decide

/-- Every pattern but 0b10 is a movement's. -/
theorem exists_code {c : MovementCode} (h : c ≠ 0b10#2) : ∃ m : Movement, c = m.code := by
  have all : ∀ c : MovementCode, c ≠ 0b10#2 →
      c = Movement.plus.code ∨ c = Movement.zero.code ∨ c = Movement.minus.code := by decide
  rcases all c h with h | h | h <;> exact ⟨_, h⟩

/-- The table is antisymmetric (spec/40_decoder.md R126). -/
theorem tableRead_reverse (p c : PhasePair) : (tableRead (transCode c p)).code = -(tableRead (transCode p c)).code := by
  revert p c; decide

@[simp] theorem codePrev_transCode (p c : PhasePair) : codePrev (transCode p c) = p := by revert p c; decide

@[simp] theorem codeCur_transCode (p c : PhasePair) : codeCur (transCode p c) = c := by revert p c; decide

/-! ### Outcomes -/

theorem guarded_next {ok : Bool} {r : Refusal} {o : Result} {t : State} (h : guarded ok r o = .next t) :
    ok = true ∧ o = .next t := by
  cases ok <;> simp_all [guarded]

theorem orFault_next {α : Type} {x : Except Fault α} {k : α → Result} {t : State} (h : orFault x k = .next t) :
    ∃ v, x = .ok v ∧ k v = .next t := by
  cases x <;> simp_all [orFault]

theorem uopEnabled_iff (u : Uop) (s : State) : uopEnabled u.code s = true ↔ UopReady u s := by
  simp [uopEnabled, UopReady, and_assoc]

theorem whenUop_of_ready {u : Uop} {s : State} {o : Result} (h : UopReady u s) : whenUop u s o = o := by
  simp [whenUop, guarded, (uopEnabled_iff u s).2 h]

theorem whenUop_of_not_ready {u : Uop} {s : State} {o : Result} (h : ¬UopReady u s) :
    whenUop u s o = .refused .uopNotEnabled := by
  have off : uopEnabled u.code s = false := by
    rw [Bool.eq_false_iff, ne_eq, uopEnabled_iff]; exact h
  simp [whenUop, guarded, off]

theorem whenUop_next {u : Uop} {s t : State} {o : Result} (h : whenUop u s o = .next t) :
    UopReady u s ∧ o = .next t :=
  ⟨(uopEnabled_iff u s).1 (guarded_next h).1, (guarded_next h).2⟩

/-! ### Reads -/

theorem readScratch_ok {α : Type} {r : Option α} {v : α} (h : readScratch r = .ok v) : r = some v := by
  cases r <;> simp_all [readScratch]

theorem readMovement_ok {c : MovementCode} {m : Movement} (h : readMovement c = .ok m) : c = m.code := by
  by_cases bad : c = 0b10#2
  · subst bad; simp [readMovement, Movement.ofCode] at h
  · obtain ⟨n, rfl⟩ := exists_code bad
    simp [readMovement] at h; rw [h]

theorem readMov_ok {s : State} {m : Movement} (h : readMov s = .ok m) : s.mov = some m.code := by
  simp only [readMov] at h
  cases hs : readScratch s.mov with
  | ok c => rw [hs] at h; rw [readScratch_ok hs, readMovement_ok h]
  | error f => simp [hs] at h

theorem readMov_of {s : State} {m : Movement} (h : s.mov = some m.code) : readMov s = .ok m := by
  simp [readMov, readScratch, readMovement, h]

theorem readPmov_of {s : State} {m : Movement} (h : s.pmov = m.code) : readPmov s = .ok m := by
  simp [readPmov, readMovement, h]

theorem readCur_of {s : State} {c : PhasePair} (h : s.cur = some c) : readCur s = .ok c := by
  simp [readCur, readScratch, h]

/-! ### The sequencer's fetch -/

/-- Where each µop stands in the µROM (spec/42_sequencing.md R181). -/
theorem upc_of_ready {u : Uop} {s : State} (h : UopReady u s) :
    match (generalizing := false) u with
    | .sample => s.upc = 0#4
    | .lookup => s.upc = 1#4
    | .validate => s.upc = 2#4
    | .clrflag => s.upc = 3#4
    | .load => s.upc = 4#4
    | .toggle => s.upc = 5#4 ∨ s.upc = 9#4
    | .arm => s.upc = 6#4
    | .update => s.upc = 7#4
    | .reti => s.upc = 8#4 ∨ s.upc = 11#4
    | .disarm => s.upc = 10#4 := by
  have read := h.2.2
  clear h; revert read; generalize s.upc = a; revert a; cases u <;> decide

theorem decodeUop_ok {c : UopCode} {u : Uop} (h : decodeUop c = .ok u) : c = u.code := by
  have all : ∀ c : UopCode, (match decodeUop c with | .ok u => decide (c = u.code) | .error _ => true) = true := by
    decide
  have here := all c
  rw [h] at here; simpa using here

theorem fetchUop_ready {s : State} {u : Uop} (started : s.started = true) (busy : s.busy = true)
    (h : fetchUop s = .ok u) : UopReady u s := by
  refine ⟨started, busy, ?_⟩
  simp only [fetchUop] at h
  cases hr : uromRead s.upc with
  | none => simp [hr] at h
  | some c =>
    simp only [hr] at h
    cases hd : decodeUop c with
    | ok v => simp [hd] at h; rw [decodeUop_ok hd, h]
    | error e => simp [hd] at h

theorem runUop_eq_exec (u : Uop) (s : State) : runUop u s = exec u.toInstr s := by cases u <;> rfl

end Sys2Proof.Machine
end

