-- ==== Sys2Proof/Laws/Exec.lean ====
section
/-! SUPPORT. What an instruction can do, said once: if a µop answers a next state, which one; if any instruction does,
which event or µop it was. -/

namespace Sys2Proof.Machine

theorem execLookup_next {s t : State} (h : execLookup s = .next t) :
    UopReady .lookup s ∧ ∃ c, s.cur = some c ∧ t = writeEntry (transCode s.prev c) s := by
  obtain ⟨ready, h⟩ := whenUop_next h
  obtain ⟨c, read, h⟩ := orFault_next h
  exact ⟨ready, c, readScratch_ok read, by cases h; rfl⟩

theorem execValidate_next {s t : State} (h : execValidate s = .next t) :
    UopReady .validate s ∧ ∃ m p : Movement, s.mov = some m.code ∧ s.pmov = p.code ∧
      t = { s with valid := some (decide (m = p)), upc := if m = p then 3#4 else 7#4 } := by
  obtain ⟨ready, h⟩ := whenUop_next h
  obtain ⟨m, readM, h⟩ := orFault_next h
  obtain ⟨p, readP, h⟩ := orFault_next h
  refine ⟨ready, m, p, readMov_ok readM, readMovement_ok readP, ?_⟩
  have upc : s.upc = 2#4 := upc_of_ready ready
  cases h
  by_cases same : m = p <;> simp [validOf, toInt_inj, same, upc, skipTarget]

theorem execUpdate_next {s t : State} (h : execUpdate s = .next t) :
    UopReady .update s ∧ ∃ (m : Movement) (c : PhasePair), s.mov = some m.code ∧ s.cur = some c ∧
      t = { s with pmov := m.code, prev := c, upc := s.upc + 1#4 } := by
  obtain ⟨ready, h⟩ := whenUop_next h
  obtain ⟨m, readM, h⟩ := orFault_next h
  obtain ⟨c, readC, h⟩ := orFault_next h
  exact ⟨ready, m, c, readMov_ok readM, readScratch_ok readC, by cases h; rfl⟩

/-- A table entry that is taken is the `LOOKUP` that takes it. -/
theorem selectEntry_next {c : TransCode} {s t : State} (h : selectEntry c s = .next t) : exec .lookup s = .next t := by
  obtain ⟨ready, h⟩ := whenUop_next h
  obtain ⟨cur, read, h⟩ := orFault_next h
  obtain ⟨hit, h⟩ := guarded_next h
  simp only [decide_eq_true_eq] at hit
  subst hit
  simp only [exec, execLookup, whenUop_of_ready ready, read, orFault]; exact h

/-- What the next state of each µop is. -/
theorem uop_next {u : Uop} {s t : State} (h : exec u.toInstr s = .next t) :
    UopReady u s ∧
      match (generalizing := false) u with
      | .sample => t = { s with cur := some (inPair s), upc := s.upc + 1#4 }
      | .lookup => ∃ c, s.cur = some c ∧ t = writeEntry (transCode s.prev c) s
      | .validate => ∃ m p : Movement, s.mov = some m.code ∧ s.pmov = p.code ∧
          t = { s with valid := some (decide (m = p)), upc := if m = p then 3#4 else 7#4 }
      | .clrflag => t = { s with tov := false, upc := s.upc + 1#4 }
      | .load => t = { s with tcnt := s.cfg.loadValue, upc := s.upc + 1#4 }
      | .toggle => t = { s with pin := !s.pin, upc := s.upc + 1#4 }
      | .arm => t = { s with tie := true, upc := s.upc + 1#4 }
      | .update => ∃ (m : Movement) (c : PhasePair), s.mov = some m.code ∧ s.cur = some c ∧
          t = { s with pmov := m.code, prev := c, upc := s.upc + 1#4 }
      | .reti => t = leaveHandler s
      | .disarm => t = { s with tie := false, upc := s.upc + 1#4 } := by
  cases u
  case lookup => exact execLookup_next h
  case validate => exact execValidate_next h
  case update => exact execUpdate_next h
  all_goals
    obtain ⟨ready, h⟩ := whenUop_next h
    exact ⟨ready, by cases h; rfl⟩

theorem execStep_next {s t : State} (h : exec .step s = .next t) :
    s.started = true ∧ s.busy = true ∧ ∃ u, fetchUop s = .ok u ∧ exec u.toInstr s = .next t := by
  obtain ⟨started, h⟩ := guarded_next h
  obtain ⟨busy, h⟩ := guarded_next h
  obtain ⟨u, fetched, h⟩ := orFault_next h
  exact ⟨started, busy, u, fetched, by rw [← runUop_eq_exec]; exact h⟩

/-- `STEP` is the µop it fetches. -/
theorem execStep_of_fetch {s : State} {u : Uop} (started : s.started = true) (busy : s.busy = true)
    (fetched : fetchUop s = .ok u) : exec .step s = exec u.toInstr s := by
  show execStep s = _
  simp only [execStep, guarded, started, busy, cond_true, fetched, orFault, runUop_eq_exec]

/-- What the next state of any instruction is: `RESET`'s, an environment, timer or dispatch event's, or that of the µop
which it executes. -/
inductive NextCase (i : Instr) (s t : State) : Prop where
  | reset (h : i = .reset) (before : s.started = false) (eq : t = resetWith (resetDraws s) s)
  | input (a b : Bool) (h : i = .input a b) (started : s.started = true)
      (eq : t = { s with
        pendA := pendAfter s.pendA s.inA a, pendB := pendAfter s.pendB s.inB b, inA := a, inB := b })
  | tick (h : i = .tick) (started : s.started = true)
      (eq : t = { s with tcnt := countAfterTick s, tov := tovAfterTick s })
  | takePhase (src : PhaseSource) (h : i = .takePhase src) (started : s.started = true) (idle : s.busy = false)
      (pend : pending src s = true) (eq : t = enterHandler phaseEntry (clearScratch (clearPending src s)))
  | takeTimer (h : i = .takeTimer) (started : s.started = true) (idle : s.busy = false) (armed : s.tie = true)
      (expired : s.tov = true) (eq : t = enterHandler timerEntry { s with tov := false })
  | uop (u : Uop) (h : executedUop i s = some u) (ready : UopReady u s) (eq : exec u.toInstr s = .next t)

theorem exec_next {i : Instr} {s t : State} (h : exec i s = .next t) : NextCase i s t := by
  have ofUop : ∀ u : Uop, exec u.toInstr s = .next t → executedUop i s = some u → NextCase i s t :=
    fun u hu e => .uop u e (uop_next hu).1 hu
  cases i
  case reset =>
    obtain ⟨before, h⟩ := guarded_next h
    cases h; exact .reset rfl (by simpa using before) rfl
  case input a b =>
    obtain ⟨started, h⟩ := guarded_next h
    cases h; exact .input a b rfl started rfl
  case tick =>
    obtain ⟨started, h⟩ := guarded_next h
    cases h; exact .tick rfl started rfl
  case takePhase src =>
    obtain ⟨started, h⟩ := guarded_next h
    obtain ⟨enabled, h⟩ := guarded_next h
    simp only [phaseEnabled, Bool.and_eq_true, Bool.not_eq_true'] at enabled
    cases h; exact .takePhase src rfl started enabled.1 enabled.2 rfl
  case takeTimer =>
    obtain ⟨started, h⟩ := guarded_next h
    obtain ⟨enabled, h⟩ := guarded_next h
    simp only [timerEnabled, Bool.and_eq_true, Bool.not_eq_true'] at enabled
    cases h; exact .takeTimer rfl started enabled.1.1 enabled.1.2 enabled.2 rfl
  case step =>
    obtain ⟨_, _, u, fetched, hu⟩ := execStep_next h
    exact ofUop u hu (by simp [executedUop, fetched, Except.toOption])
  case sample => exact ofUop .sample h rfl
  case lookup => exact ofUop .lookup h rfl
  case validate => exact ofUop .validate h rfl
  case clrflag => exact ofUop .clrflag h rfl
  case load => exact ofUop .load h rfl
  case toggle => exact ofUop .toggle h rfl
  case arm => exact ofUop .arm h rfl
  case update => exact ofUop .update h rfl
  case reti => exact ofUop .reti h rfl
  case disarm => exact ofUop .disarm h rfl
  all_goals exact ofUop .lookup (selectEntry_next h) rfl

/-- What a step that answers a next state did: it took the next event word and executed its instruction. -/
theorem step_next {s t : State} (h : step s = .next t) :
    ∃ w rest i, s.events = w :: rest ∧ decodeEvent w = .ok i ∧ exec i { s with events := rest } = .next t := by
  simp only [step, fetchEvent] at h
  cases he : s.events with
  | nil => simp [he] at h
  | cons w rest =>
    simp only [he] at h
    cases hd : decodeEvent w with
    | ok i => simp only [hd] at h; exact ⟨w, rest, i, rfl, hd, h⟩
    | error e => simp [hd] at h

/-- A step of a run is taken first, the rest of the run from its next state. -/
theorem runSteps_succ {k : Nat} {s t : State} (h : runSteps (k + 1) s = .next t) :
    ∃ u, step s = .next u ∧ runSteps k u = .next t := by
  simp only [runSteps] at h
  cases hs : step s with
  | next u => exact ⟨u, rfl, by simpa [hs] using h⟩
  | fault f => simp [hs] at h
  | refused r => simp [hs] at h

/-- What a step adds to the observation of a run. -/
theorem observation_succ {s t : State} {w : EventWord} {rest : List EventWord} {i : Instr} (events : s.events = w :: rest)
    (decoded : decodeEvent w = .ok i) (h : exec i { s with events := rest } = .next t) (k : Nat) :
    observation (k + 1) s = observed i s t :: observation k t := by
  simp [observation, fetchEvent, events, decoded, h]

/-! ### The events to come -/

/-- An outcome with other events to come. -/
def placeResult (ws : List EventWord) : Result → Result
  | .next s => .next (placeRun ws s)
  | .fault f => .fault f
  | .refused r => .refused r

theorem guarded_placeRun {ok : Bool} {r : Refusal} {o o' : Result} {ws : List EventWord} (h : o' = placeResult ws o) :
    guarded ok r o' = placeResult ws (guarded ok r o) := by
  cases ok
  · rfl
  · exact h

theorem orFault_placeRun {α : Type} {x : Except Fault α} {k k' : α → Result} {ws : List EventWord}
    (h : ∀ v, k' v = placeResult ws (k v)) : orFault x k' = placeResult ws (orFault x k) := by
  cases x
  · rfl
  · exact h _

theorem uop_placeRun (u : Uop) (s : State) (ws : List EventWord) :
    exec u.toInstr (placeRun ws s) = placeResult ws (exec u.toInstr s) := by
  cases u
  case lookup => exact guarded_placeRun (orFault_placeRun fun _ => rfl)
  case validate | update => exact guarded_placeRun (orFault_placeRun fun _ => orFault_placeRun fun _ => rfl)
  all_goals exact guarded_placeRun rfl

/-- No instruction reads or writes the events to come. -/
theorem exec_placeRun (i : Instr) (s : State) (ws : List EventWord) :
    exec i (placeRun ws s) = placeResult ws (exec i s) := by
  cases i
  case reset | input | tick => exact guarded_placeRun rfl
  case takePhase src => cases src <;> exact guarded_placeRun (guarded_placeRun rfl)
  case takeTimer => exact guarded_placeRun (guarded_placeRun rfl)
  case step =>
    refine guarded_placeRun (guarded_placeRun (orFault_placeRun fun u => ?_))
    rw [runUop_eq_exec, runUop_eq_exec]; exact uop_placeRun u s ws
  case sample => exact uop_placeRun .sample s ws
  case lookup => exact uop_placeRun .lookup s ws
  case validate => exact uop_placeRun .validate s ws
  case clrflag => exact uop_placeRun .clrflag s ws
  case load => exact uop_placeRun .load s ws
  case toggle => exact uop_placeRun .toggle s ws
  case arm => exact uop_placeRun .arm s ws
  case update => exact uop_placeRun .update s ws
  case reti => exact uop_placeRun .reti s ws
  case disarm => exact uop_placeRun .disarm s ws
  all_goals exact guarded_placeRun (orFault_placeRun fun _ => guarded_placeRun rfl)

theorem step_placeRun {w : EventWord} {i : Instr} (decoded : decodeEvent w = .ok i) (ws : List EventWord) (s : State) :
    step (placeRun (w :: ws) s) = placeResult ws (exec i s) := by
  rw [← exec_placeRun]; simp only [step, fetchEvent, placeRun, decoded]

/-- A finite run is its first event's step and a run from there. -/
theorem finiteRun_cons {w : EventWord} {ws : List EventWord} {s : State} :
    FiniteRun (w :: ws) s ↔ ∃ i t, decodeEvent w = .ok i ∧ exec i s = .next t ∧ FiniteRun ws t := by
  constructor
  · rintro ⟨v, h⟩
    obtain ⟨u, hs, h⟩ := runSteps_succ h
    obtain ⟨_, _, i, events, decoded, -⟩ := step_next hs
    cases events
    rw [step_placeRun decoded] at hs
    cases hx : exec i s <;> rw [hx] at hs <;> cases hs
    exact ⟨i, _, decoded, hx, v, h⟩
  · rintro ⟨i, t, decoded, hx, v, h⟩
    refine ⟨v, ?_⟩
    show runSteps (ws.length + 1) _ = _
    simp only [runSteps, step_placeRun decoded, hx, placeResult]; exact h

theorem execAll_cons {i : Instr} {is : List Instr} {s t : State} (h : exec i s = .next t) :
    execAll (i :: is) s = execAll is t := by
  simp [execAll, h]

theorem execAll_append (is js : List Instr) (s : State) : execAll (is ++ js) s = (execAll is s).bind (execAll js) := by
  induction is generalizing s with
  | nil => rfl
  | cons i is ih => simp only [List.cons_append, execAll]; cases exec i s <;> simp [ih]

end Sys2Proof.Machine
end

