-- ==== Sys2Proof/Laws/PerInstr.lean ====
section
/-! SUPPORT. A law of every instruction as syntax: its encoding is one of the words of its opcode-table row, and of its
row's format. -/

namespace Sys2Proof.Laws.EncodesIntoRow

/-- The encoding of an instruction is a word that its row of spec/opcode_table.json covers. -/
def Statement (i : Instr) : Prop := i.row.covers (encode i) = true

theorem reset : Statement .reset := rfl
theorem input (a b : Bool) : Statement (.input a b) := by
  cases a <;> cases b <;> rfl
theorem tick : Statement .tick := rfl
theorem takePhase (source : PhaseSource) : Statement (.takePhase source) := by
  cases source <;> rfl
theorem takeTimer : Statement .takeTimer := rfl
theorem step : Statement .step := rfl
theorem sample : Statement .sample := rfl
theorem lookup : Statement .lookup := rfl
theorem validate : Statement .validate := rfl
theorem clrflag : Statement .clrflag := rfl
theorem load : Statement .load := rfl
theorem toggle : Statement .toggle := rfl
theorem arm : Statement .arm := rfl
theorem update : Statement .update := rfl
theorem reti : Statement .reti := rfl
theorem disarm : Statement .disarm := rfl
theorem tc_00_00 : Statement .tc_00_00 := rfl
theorem tc_00_01 : Statement .tc_00_01 := rfl
theorem tc_00_10 : Statement .tc_00_10 := rfl
theorem tc_00_11 : Statement .tc_00_11 := rfl
theorem tc_01_00 : Statement .tc_01_00 := rfl
theorem tc_01_01 : Statement .tc_01_01 := rfl
theorem tc_01_10 : Statement .tc_01_10 := rfl
theorem tc_01_11 : Statement .tc_01_11 := rfl
theorem tc_10_00 : Statement .tc_10_00 := rfl
theorem tc_10_01 : Statement .tc_10_01 := rfl
theorem tc_10_10 : Statement .tc_10_10 := rfl
theorem tc_10_11 : Statement .tc_10_11 := rfl
theorem tc_11_00 : Statement .tc_11_00 := rfl
theorem tc_11_01 : Statement .tc_11_01 := rfl
theorem tc_11_10 : Statement .tc_11_10 := rfl
theorem tc_11_11 : Statement .tc_11_11 := rfl

end Sys2Proof.Laws.EncodesIntoRow
end

