-- ==== Sys2Proof/Tests/Slice0.lean ====
section
/-! SUPPORT. Tests. Expected results are the spec's: the vectors of spec/95_test_vectors.md (V-…), its examples, and
words written out from spec/30_encoding.md R80, R84, R86. The configuration is D28's. Then one witness for the
hypotheses of each statement. -/

namespace Sys2Proof.Machine.Tests

/-- D28: `P_MAX_COUNT = 7`, `P_LOAD_VALUE = 5`, `P_REST_LEVEL = 0`, `P_INIT_PREV_MOVEMENT = 0`. -/
def d28 : Params := { maxCount := 7, loadValue := 5 }

/-- The state `00 0 0 0 0 0 00 0 00` of spec/95_test_vectors.md. -/
def base : State where
  prev := 0b00#2
  pmov := 0b00#2
  cur := none
  code := none
  mov := none
  valid := none
  pin := false
  tie := false
  tov := false
  tcnt := 0
  pendA := false
  pendB := false
  busy := false
  upc := 0#4
  inA := false
  inB := false
  cfg := d28
  started := true
  events := []
  drawIndex := 0

/-- A handler at a µROM address, nothing written yet. -/
def inRun (a : Uaddr) : State := { base with busy := true, upc := a }

/-- A handler at a µROM address after `LOOKUP` of `00 → 10`, movement +1. -/
def lookedUp (a : Uaddr) : State :=
  { inRun a with cur := some 0b10#2, code := some 0b0010#4, mov := some 0b01#2 }

/-- The same on the arm path. -/
def armPath (a : Uaddr) : State := { lookedUp a with pmov := 0b01#2, valid := some true }

/-- The result is a next state with this property. -/
def nextIs (r : Result) (p : State → Bool) : Bool :=
  match r with
  | .next t => p t
  | _ => false

/-- The result is this refusal. -/
def refusedBy (r : Result) (why : Refusal) : Bool :=
  match r with
  | .refused x => decide (x = why)
  | _ => false

/-- The result is this fault. -/
def faultsBy (r : Result) (why : Fault) : Bool :=
  match r with
  | .fault x => decide (x = why)
  | _ => false

/-! ### Well-formedness: R10's three checks, each refusing an ill-formed configuration -/

theorem test_wf_refuses_max_count_zero : (RawParams.mk 0 0 false .zero).wellFormed = false := by decide
theorem test_wf_refuses_negative_load : (RawParams.mk 7 (-1) false .zero).wellFormed = false := by decide
theorem test_wf_refuses_load_above_max : (RawParams.mk 7 8 false .zero).wellFormed = false := by decide
theorem test_wf_accepts_boundary : (Params.ofRaw ⟨1, 1, true, .zero⟩).isSome = true := by decide
theorem test_wf_instructions : Instr.wellFormed (.input true false) = true := by decide

/-! ### Decoding: a word of every constructor, written out from the encodings -/

theorem test_decode_events :
    decodeEvent 0b00000000#8 = .ok .reset ∧ decodeEvent 0b00010010#8 = .ok (.input true false) ∧
      decodeEvent 0b00010001#8 = .ok (.input false true) ∧ decodeEvent 0b00100000#8 = .ok .tick ∧
      decodeEvent 0b00110000#8 = .ok (.takePhase .a) ∧ decodeEvent 0b00110001#8 = .ok (.takePhase .b) ∧
      decodeEvent 0b01000000#8 = .ok .takeTimer ∧ decodeEvent 0b01010000#8 = .ok .step := ⟨rfl, rfl, rfl, rfl, rfl, rfl, rfl, rfl⟩

/-- V-DECODE's invalid words. -/
theorem test_decode_invalid_events :
    [0x14#8, 0x21#8, 0x32#8, 0x60#8, 0xFF#8, 0x01#8].all
      (fun w => match decodeEvent w with | .ok _ => false | .error e => decide (e = .reservedEvent)) = true := by decide

theorem test_decode_uops :
    (decode (.uop4 0b0000#4) = .ok .sample ∧ decode (.uop4 0b0001#4) = .ok .lookup ∧
      decode (.uop4 0b0010#4) = .ok .validate ∧ decode (.uop4 0b0011#4) = .ok .clrflag ∧
      decode (.uop4 0b0100#4) = .ok .load) ∧
    (decode (.uop4 0b0101#4) = .ok .toggle ∧ decode (.uop4 0b0110#4) = .ok .arm ∧
      decode (.uop4 0b0111#4) = .ok .update ∧ decode (.uop4 0b1000#4) = .ok .reti ∧
      decode (.uop4 0b1001#4) = .ok .disarm) := ⟨⟨rfl, rfl, rfl, rfl, rfl⟩, rfl, rfl, rfl, rfl, rfl⟩

theorem test_decode_reserved_uops :
    [0xA#4, 0xB#4, 0xC#4, 0xD#4, 0xE#4, 0xF#4].all
      (fun c => match decodeUop c with | .ok _ => false | .error e => decide (e = .reservedUop)) = true := by decide

theorem test_decode_codes :
    [0b0000#4, 0b0001#4, 0b0010#4, 0b0011#4, 0b0100#4, 0b0101#4, 0b0110#4, 0b0111#4, 0b1000#4, 0b1001#4, 0b1010#4,
      0b1011#4, 0b1100#4, 0b1101#4, 0b1110#4, 0b1111#4].map decodeTransCode =
    [.tc_00_00, .tc_00_01, .tc_00_10, .tc_00_11, .tc_01_00, .tc_01_01, .tc_01_10, .tc_01_11, .tc_10_00, .tc_10_01,
      .tc_10_10, .tc_10_11, .tc_11_00, .tc_11_01, .tc_11_10, .tc_11_11] := by decide

/-- No two event rows of the opcode table overlap: they differ in a bit both masks have. -/
theorem test_event_rows_disjoint :
    ([Instr.reset, .input true true, .tick, .takePhase .a, .takeTimer, .step].map Instr.row).Pairwise
      (fun r q => (r.value ^^^ q.value) &&& r.mask &&& q.mask ≠ 0) := by decide

theorem test_table_words :
    decodeTableWord 8 0x13 = some (.input true true) ∧ decodeTableWord 8 0x21 = none ∧
      decodeTableWord 4 0 = some .sample ∧ decodeTableWord 4 10 = some .tc_10_10 := by decide

/-! ### The Decoder -/

/-- V-SAMPLE. -/
theorem test_sample : nextIs (exec .sample { inRun 0 with inA := true })
    (fun t => decide (t.cur = some 0b10#2 ∧ t.upc = 1#4)) = true := by decide

/-- V-LOOKUP: `01 → 11` is code 0111 and movement −1; `11 → 00` is code 1100 and movement 0. -/
theorem test_lookup : nextIs (exec .lookup { inRun 1 with prev := 0b01#2, cur := some 0b11#2 })
      (fun t => decide (t.code = some 0b0111#4 ∧ t.mov = some 0b11#2 ∧ t.upc = 2#4)) = true ∧
    nextIs (exec .lookup { inRun 1 with prev := 0b11#2, cur := some 0b00#2 })
      (fun t => decide (t.code = some 0b1100#4 ∧ t.mov = some 0b00#2)) = true := by decide

/-- V-TBL, as R126's array. -/
theorem test_table : ((List.range 16).map fun k => (tableRead (BitVec.ofNat 4 k)).toInt) =
    [0, -1, 1, 0, 1, 0, 0, -1, -1, 0, 0, 1, 0, 1, -1, 0] := by decide

/-- V-VAL: all nine pairs, `VALID` and the next `UPC`. -/
theorem test_validate :
    [(0b01#2, 0b01#2, true, 3#4), (0b01#2, 0b00#2, false, 7#4), (0b01#2, 0b11#2, false, 7#4),
      (0b00#2, 0b01#2, false, 7#4), (0b00#2, 0b00#2, true, 3#4), (0b00#2, 0b11#2, false, 7#4),
      (0b11#2, 0b01#2, false, 7#4), (0b11#2, 0b00#2, false, 7#4), (0b11#2, 0b11#2, true, 3#4)].all
      (fun (m, p, v, u) => nextIs (exec .validate { lookedUp 2 with mov := some m, pmov := p })
        (fun t => decide (t.valid = some v ∧ t.upc = u))) = true := by decide

/-- V-UPDATE. -/
theorem test_update : nextIs (exec .update { lookedUp 7 with mov := some 0b11#2, cur := some 0b00#2, prev := 0b10#2 })
    (fun t => decide (t.pmov = 0b11#2 ∧ t.prev = 0b00#2 ∧ t.upc = 8#4)) = true := by decide

theorem test_unwritten_scratch_faults : faultsBy (exec .lookup (inRun 1)) .unwrittenScratch = true ∧
    faultsBy (exec .step (inRun 7)) .unwrittenScratch = true := by decide

theorem test_bad_movement_faults : faultsBy (exec .validate { lookedUp 2 with pmov := 0b10#2 }) .badMovement = true := by
  decide

/-! ### The Shaper -/

/-- V-SHAPER. -/
theorem test_clrflag : nextIs (exec .clrflag { armPath 3 with tov := true })
    (fun t => decide (t.tov = false ∧ t.upc = 4#4)) = true := by decide
theorem test_load : nextIs (exec .load { armPath 4 with tcnt := 2, tov := true })
    (fun t => decide (t.tcnt = 5 ∧ t.tov = true)) = true := by decide
theorem test_toggle : nextIs (exec .toggle (armPath 5)) (fun t => t.pin) = true ∧
    nextIs (exec .toggle { inRun 9 with pin := true }) (fun t => decide (t.pin = false ∧ t.upc = 10#4)) = true := by
  decide
theorem test_arm : nextIs (exec .arm (armPath 6)) (fun t => decide (shaperState t = .armed)) = true := by decide
theorem test_disarm : nextIs (exec .disarm { inRun 10 with tie := true })
    (fun t => decide (shaperState t = .idle)) = true := by decide
theorem test_reti : nextIs (exec .reti (armPath 8)) (fun t => decide (t.busy = false ∧ t.cur = none)) = true ∧
    nextIs (exec .reti (inRun 11)) (fun t => !t.busy) = true := by decide
theorem test_uop_elsewhere_refused : refusedBy (exec .load (armPath 3)) .uopNotEnabled = true := by decide

/-! ### Events -/

/-- V-TICK: wrap with `TOV` merged, and a count with `TOV` kept. -/
theorem test_tick : nextIs (exec .tick { base with tcnt := 7, tov := true })
      (fun t => decide (t.tcnt = 0 ∧ t.tov = true)) = true ∧
    nextIs (exec .tick { base with tcnt := 6 }) (fun t => decide (t.tcnt = 7 ∧ t.tov = false)) = true := by decide

/-- V-INPUT: a coalesced edge, and both lines at once. -/
theorem test_input : nextIs (exec (.input false false) { base with inA := true, pendA := true })
      (fun t => decide (t.inA = false ∧ t.pendA = true ∧ t.pendB = false)) = true ∧
    nextIs (exec (.input true true) base) (fun t => t.pendA && t.pendB && t.inA && t.inB) = true := by decide

/-- V-DISPATCH. -/
theorem test_take_phase : nextIs (exec (.takePhase .a) { base with pendA := true, pendB := true })
      (fun t => decide (t.pendA = false ∧ t.pendB = true ∧ t.busy = true ∧ t.upc = 0#4)) = true ∧
    refusedBy (exec (.takePhase .b) { base with pendA := true }) .phaseNotEnabled = true := by decide
theorem test_take_timer : nextIs (exec .takeTimer { base with tie := true, tov := true })
      (fun t => decide (t.tov = false ∧ t.busy = true ∧ t.upc = 9#4)) = true ∧
    refusedBy (exec .takeTimer { base with tov := true }) .timerNotEnabled = true := by decide

/-- V-SEQUENCER. -/
theorem test_step_event : refusedBy (exec .step base) .stepNotEnabled = true ∧
    faultsBy (exec .step (inRun 12)) .upcOutOfRom = true ∧
    nextIs (exec .step (armPath 4)) (fun t => decide (t.tcnt = 5 ∧ t.upc = 5#4)) = true := by decide

/-- V-RESET's second row, with its draws; and R241. -/
theorem test_reset : (resetWith ⟨3, true, false, false⟩ { base with started := false, inA := true, inB := true }).prev = 0b11#2 ∧
    (resetWith ⟨3, true, false, false⟩ { base with started := false, inA := true, inB := true }).tcnt = 3 ∧
    refusedBy (exec .reset base) .secondReset = true := by decide
theorem test_reset_first : nextIs (exec .reset { base with started := false, tie := true, busy := true })
    (fun t => decide (t.tie = false ∧ t.busy = false ∧ t.started = true)) = true := by decide
theorem test_before_reset_refused : refusedBy (exec .tick { base with started := false }) .beforeReset = true := by decide

/-! ### Table entries -/

theorem test_table_entry : nextIs (exec .tc_00_10 { inRun 1 with cur := some 0b10#2 })
      (fun t => decide (t.code = some 0b0010#4 ∧ t.mov = some 0b01#2)) = true ∧
    refusedBy (exec .tc_00_01 { inRun 1 with cur := some 0b10#2 }) .codeNotSelected = true := by decide

/-! ### The step, the views, the text syntax -/

theorem test_step_reads_the_next_word : nextIs (step { base with events := [0x12#8, 0x20#8] })
    (fun t => decide (t.inA = true ∧ t.pendA = true ∧ t.events = [0x20#8])) = true := by decide
theorem test_step_refuses : refusedBy (step { base with events := [0x21#8] }) .reservedEvent = true ∧
    refusedBy (step base) .noEvent = true := by decide
theorem test_fetch_words_run :
    [(8, 0x00), (8, 0x12), (8, 0x20), (8, 0x31), (8, 0x40), (8, 0x50), (8, 0x02), (8, 0x0F), (4, 0x8)].all
      (fun (n, w) => nextIs (step (State.reset.withFetchWord n w)) (fun _ => true)) = true := by decide
theorem test_registers : registerWord 7 (inRun 9) = some 25 ∧ registerWord 8 (armPath 3) = some 330 ∧
    registerWord 8 base = none ∧ pulseState { base with pin := true } = true ∧ countWidth d28 = 3 := by decide
theorem test_text : parseLine "EDGE 1 0 ; A rises".toList = some (some (.edge true false)) ∧
    parseLine "TAKE_PHASE B".toList = some (some (.event (.takePhase .b))) ∧
    parseLine "INPUT 2 0".toList = none ∧ parseLine "; only a comment".toList = some none := by decide

/-! ### A witness for the hypotheses of each statement -/

theorem base_inv : BlockInv base :=
  ⟨rfl, by decide, by decide, fun busy => (by cases busy), fun _ => ⟨rfl, rfl, rfl, rfl⟩⟩
theorem armPath4_inv : BlockInv { armPath 4 with tcnt := 7 } :=
  ⟨rfl, by decide, by decide, fun _ => ⟨⟨_, rfl, rfl, rfl⟩, rfl, rfl⟩, fun idle => (by cases idle)⟩
theorem update_inv : BlockInv { lookedUp 7 with valid := some false } :=
  ⟨rfl, by decide, by decide, fun _ => ⟨⟨_, rfl, rfl, rfl⟩, rfl⟩, fun idle => (by cases idle)⟩
theorem armed_inv : BlockInv { base with tie := true, tov := true } :=
  ⟨rfl, by decide, by decide, fun busy => (by cases busy), fun _ => ⟨rfl, rfl, rfl, rfl⟩⟩

theorem test_witness_StepRunsTheNextEvent :
    ({ base with events := [0x20#8] } : State).events = 0x20#8 :: [] ∧ decode (.ev8 0x20#8) = .ok .tick := ⟨rfl, rfl⟩
theorem test_witness_StepRefusesReservedWords :
    ({ base with events := [0x60#8] } : State).events = 0x60#8 :: [] ∧ decodeEvent 0x60#8 = .error .reservedEvent ∧
      base.events = [] := ⟨rfl, rfl, rfl⟩
/-- Every address of the µROM, and the first one above it. -/
theorem test_witness_SequencerExecutesTheUromElement :
    base.started = true ∧ base.busy = false ∧
      ([0#4, 1#4, 2#4, 3#4, 4#4, 5#4, 6#4, 7#4, 8#4, 9#4, 10#4, 11#4].all
        (fun a => (inRun a).started && (inRun a).busy && decide ((inRun a).upc = a)) = true) ∧
      11 < (inRun 12).upc.toNat := by decide
theorem test_witness_StepCompletesWhileAHandlerRuns :
    BlockInv { armPath 4 with tcnt := 7 } ∧ ({ armPath 4 with tcnt := 7 } : State).busy = true :=
  ⟨armPath4_inv, rfl⟩
/-- A state in which each µop is ready, and one in which it is not. -/
theorem test_witness_UopStatements :
    UopReady .sample (inRun 0) ∧ UopReady .lookup (inRun 1) ∧ UopReady .validate (inRun 2) ∧
      UopReady .clrflag (inRun 3) ∧ UopReady .load (inRun 4) ∧ UopReady .toggle (inRun 5) ∧
      UopReady .toggle (inRun 9) ∧ UopReady .arm (inRun 6) ∧ UopReady .update (inRun 7) ∧
      UopReady .reti (inRun 8) ∧ UopReady .reti (inRun 11) ∧ UopReady .disarm (inRun 10) ∧
      ∀ u, ¬UopReady u base :=
  ⟨⟨rfl, rfl, rfl⟩, ⟨rfl, rfl, rfl⟩, ⟨rfl, rfl, rfl⟩, ⟨rfl, rfl, rfl⟩, ⟨rfl, rfl, rfl⟩, ⟨rfl, rfl, rfl⟩,
    ⟨rfl, rfl, rfl⟩, ⟨rfl, rfl, rfl⟩, ⟨rfl, rfl, rfl⟩, ⟨rfl, rfl, rfl⟩, ⟨rfl, rfl, rfl⟩, ⟨rfl, rfl, rfl⟩,
    fun _ ready => Bool.noConfusion ready.2.1⟩
theorem test_witness_LookupFormsCodeAndMovement :
    UopReady .lookup { inRun 1 with cur := some 0b11#2 } ∧
      ({ inRun 1 with cur := some 0b11#2 } : State).cur = some 0b11#2 ∧ (inRun 1).cur = none := ⟨⟨rfl, rfl, rfl⟩, rfl, rfl⟩
theorem test_witness_ValidateComparesMovements :
    UopReady .validate (lookedUp 2) ∧ (lookedUp 2).mov = some Movement.plus.code ∧
      (lookedUp 2).pmov = Movement.zero.code ∧ Movement.plus.toInt ≠ Movement.zero.toInt ∧
      ({ lookedUp 2 with pmov := 0b01#2 } : State).pmov = Movement.plus.code ∧ (inRun 2).mov = none :=
  ⟨⟨rfl, rfl, rfl⟩, rfl, rfl, by decide, rfl, rfl⟩
theorem test_witness_UpdateRecordsTheTransition :
    UopReady .update (lookedUp 7) ∧ (lookedUp 7).mov = some Movement.plus.code ∧ (lookedUp 7).cur = some 0b10#2 :=
  ⟨⟨rfl, rfl, rfl⟩, rfl, rfl⟩
theorem test_witness_BadScratchReadsFault :
    (UopReady .update (inRun 7) ∧ (inRun 7).mov = none) ∧
      (UopReady .update { inRun 7 with mov := some 0b01#2 } ∧
        ({ inRun 7 with mov := some 0b01#2 } : State).mov = some Movement.plus.code ∧
        ({ inRun 7 with mov := some 0b01#2 } : State).cur = none) ∧
      (UopReady .update { inRun 7 with mov := some 0b10#2 } ∧ UopReady .validate { inRun 2 with mov := some 0b10#2 }) ∧
      (UopReady .validate { lookedUp 2 with pmov := 0b10#2 } ∧
        ({ lookedUp 2 with pmov := 0b10#2 } : State).mov = some Movement.plus.code) :=
  ⟨⟨⟨rfl, rfl, rfl⟩, rfl⟩, ⟨⟨rfl, rfl, rfl⟩, rfl, rfl⟩, ⟨⟨rfl, rfl, rfl⟩, rfl, rfl, rfl⟩, ⟨rfl, rfl, rfl⟩, rfl⟩
/-- For every pair of pairs, so for every table entry, a state in which `LOOKUP` is ready and forms it. -/
theorem test_witness_TableEntries (p c : PhasePair) :
    UopReady .lookup { inRun 1 with prev := p, cur := some c } ∧
      ({ inRun 1 with prev := p, cur := some c } : State).prev = p ∧
      ({ inRun 1 with prev := p, cur := some c } : State).cur = some c := ⟨⟨rfl, rfl, rfl⟩, rfl, rfl⟩
theorem test_witness_ReverseTransitionsHaveOppositeMovements :
    (∃ t, exec .lookup { inRun 1 with prev := 0b00#2, cur := some 0b10#2 } = .next t) ∧
      ∃ t, exec .lookup { inRun 1 with prev := 0b10#2, cur := some 0b00#2 } = .next t := ⟨⟨_, rfl⟩, _, rfl⟩
theorem test_witness_ResetStatements :
    ({ base with started := false } : State).started = false ∧ (∃ t, exec .reset { base with started := false } = .next t) ∧
      (∃ t, exec .tick base = .next t) ∧ Instr.tick ≠ .reset := ⟨rfl, ⟨_, rfl⟩, ⟨_, rfl⟩, by decide⟩
theorem test_witness_TickCountsAndWraps :
    base.started = true ∧ base.tcnt ≠ base.cfg.maxCount ∧
      ({ base with tcnt := 7 } : State).tcnt = ({ base with tcnt := 7 } : State).cfg.maxCount := by decide
theorem test_witness_InputSetsPendingOnEdges : base.started = true ∧ true ≠ base.inA ∧ false = base.inB := by decide
theorem test_witness_Dispatches :
    base.started = true ∧ base.busy = false ∧ ({ base with pendA := true } : State).pendA = true ∧
      ({ base with pendB := true } : State).pendB = true ∧ base.pendA = false ∧ base.tie = false ∧
      ({ base with tie := true, tov := true } : State).tie = true ∧
      ({ base with tie := true, tov := true } : State).tov = true ∧ (inRun 3).busy = true ∧
      (inRun 3).started = true := by decide
theorem test_witness_Invariant :
    BlockInv { armPath 4 with tcnt := 7 } ∧ BlockInv base ∧
      ∃ t, step { base with events := [0x20#8] } = .next t := ⟨armPath4_inv, base_inv, _, rfl⟩
theorem test_witness_Writers : (∃ t, exec .tick base = .next t) ∧ Instr.tick ≠ .reset ∧
    executedUop .tick base ≠ some .toggle ∧ (∃ t, exec .step (armPath 5) = .next t) ∧
    executedUop .step (armPath 5) = some .toggle := ⟨⟨_, rfl⟩, by decide, by decide, ⟨_, rfl⟩, by decide⟩
theorem test_witness_PinIsTheParityOfToggles :
    (armPath 5).started = true ∧ (∃ t, runSteps 1 { armPath 5 with events := [0x50#8] } = .next t) ∧
      toggleCount 1 { armPath 5 with events := [0x50#8] } = 1 := ⟨rfl, ⟨_, rfl⟩, by decide⟩
theorem test_witness_HandlerRunsEndWithinNineSteps :
    (∃ t, exec (.takePhase .a) { base with pendA := true } = .next t) ∧
      (∃ t, exec .takeTimer { base with tie := true, tov := true } = .next t) ∧
      BlockInv { lookedUp 7 with valid := some false } ∧
      (∃ t, exec .step { lookedUp 7 with valid := some false } = .next t) ∧
      ∃ t, exec .tick (inRun 3) = .next t := ⟨⟨_, rfl⟩, ⟨_, rfl⟩, update_inv, ⟨_, rfl⟩, _, rfl⟩
theorem test_witness_PrevIsTheLowPairOfTheCode :
    BlockInv { lookedUp 7 with valid := some false } ∧
      ∃ t, exec .update { lookedUp 7 with valid := some false } = .next t := ⟨update_inv, _, rfl⟩
theorem test_witness_QuiescentEnablesOnlyInputAndTick : base.started = true ∧ quiescent base = true := by decide
theorem test_witness_ShaperIgnoresTheDecoder :
    Uop.arm ∈ [Uop.clrflag, .load, .toggle, .arm, .disarm] ∧ ∃ t, exec Uop.arm.toInstr (armPath 6) = .next t :=
  ⟨by decide, _, rfl⟩
theorem test_witness_SwappingThePhasesChangesNoPulse :
    base.started = true ∧ ∃ t, runSteps 1 { base with events := [0x12#8] } = .next t := ⟨rfl, _, rfl⟩
/-- The two composites of R190: `00 → 00` validated by a previous 0, and `00 → 10` not. -/
theorem test_witness_PhaseHandlerComposite :
    (base.started = true ∧ base.busy = false ∧ pending .a { base with pendA := true } = true ∧ base.pmov ≠ 0b10#2) ∧
      (tableRead (base.prev ++ inPair base)).code = base.pmov ∧
      (tableRead (base.prev ++ inPair { base with inA := true })).code ≠ base.pmov := by decide
theorem test_witness_TimerHandlerComposite :
    ({ base with tie := true, tov := true } : State).started = true ∧
      ({ base with tie := true, tov := true } : State).busy = false ∧
      ({ base with tie := true, tov := true } : State).tie = true ∧
      ({ base with tie := true, tov := true } : State).tov = true := by decide
/-- Two ticks are fewer than N = 3, three are N. -/
theorem test_witness_TicksToExpiry :
    ({ base with tcnt := 5 } : State).tcnt = ({ base with tcnt := 5 } : State).cfg.loadValue ∧
      (execAll [.tick, .input true false, .tick] { base with tcnt := 5 }).isSome = true ∧
      [Instr.tick, .input true false, .tick].count .tick < d28.maxCount + 1 - d28.loadValue ∧
      (execAll [.tick, .tick, .tick] { base with tcnt := 5 }).isSome = true ∧
      [Instr.tick, .tick, .tick].count .tick = d28.maxCount + 1 - d28.loadValue := by decide
theorem test_witness_LoadFormulaNeverNarrowsThePulse :
    0 < 3 ∧ (d28.loadValue : Int) = loadFormula d28.maxCount 5 3 ∧ 0 < 5 := by decide
theorem test_witness_PendingExpiryStaysEnabled :
    base.started = true ∧ base.busy = false ∧
      (execAll [.tick, .input true true] { base with tie := true, tov := true }).isSome = true := by decide
theorem test_witness_ArmedPulseCanComplete :
    BlockInv { base with tie := true, tov := true } ∧ ({ base with tie := true, tov := true } : State).busy = false ∧
      ({ base with tie := true, tov := true } : State).tie = true := ⟨armed_inv, rfl, rfl⟩
theorem test_witness_StaleExpiryWindow :
    BlockInv { armPath 4 with tcnt := 7 } ∧ ({ armPath 4 with tcnt := 7 } : State).busy = true ∧
      ({ armPath 4 with tcnt := 7 } : State).upc = 4#4 ∧
      ({ armPath 4 with tcnt := 7 } : State).tcnt = ({ armPath 4 with tcnt := 7 } : State).cfg.maxCount :=
  ⟨armPath4_inv, rfl, rfl, rfl⟩
theorem test_witness_RetriggerRestartsThePulse :
    ({ armPath 3 with tie := true } : State).started = true ∧ ({ armPath 3 with tie := true } : State).busy = true ∧
      ({ armPath 3 with tie := true } : State).upc = 3#4 ∧ ({ armPath 3 with tie := true } : State).tie = true := by
  decide
/-- A program of one edge, `00 → 10`. -/
theorem test_witness_EdgeProgramsLeaveTheParityOfValidatedEdges :
    BlockInv base ∧ base.busy = false ∧ base.pendA = false ∧ base.pendB = false ∧ base.prev = inPair base ∧
      (assemble (edges [(true, false)]) base).isSome = true := ⟨base_inv, rfl, rfl, rfl, rfl, by decide⟩
theorem test_witness_RunPhaseExpandsToFiveOrNineSteps :
    base.started = true ∧ base.busy = false ∧ pending .b { base with pendB := true } = true ∧ base.pmov ≠ 0b10#2 := by
  decide
theorem test_witness_IllFormedConfigurationsAreRefused :
    ((0 : Int) < 1 ∨ (0 : Int) < 0 ∨ (0 : Int) > 0) ∧ ¬((7 : Int) < 1 ∨ (5 : Int) < 0 ∨ (5 : Int) > 7) := by decide

/-- A timer-expiry run from an armed state: the `TOGGLE` is its second event (R189, V-SEQUENCER). -/
theorem test_observation :
    observation 4 { base with pin := true, tie := true, tov := true, events := [0x40#8, 0x50#8, 0x50#8, 0x50#8] } =
      [⟨true, none⟩, ⟨false, some .step⟩, ⟨false, none⟩, ⟨false, none⟩] := by decide
theorem test_witness_Observation :
    (∃ t, runSteps 2 { base with tie := true, tov := true, events := [0x40#8, 0x50#8] } = .next t) ∧
      (0 : Nat) < 2 ∧ (1 : Nat) < 2 := ⟨⟨_, rfl⟩, by decide, by decide⟩
theorem test_witness_EveryRunGoesOn :
    FiniteRun [] base ∧ FiniteRun [0x00#8] { base with started := false } ∧
      firstEvents (fun _ => 0x20#8) 2 = [0x20#8, 0x20#8] := ⟨⟨_, rfl⟩, ⟨_, rfl⟩, rfl⟩
/-- Ticks for ever are an infinite run. -/
theorem test_witness_InfiniteRun : InfiniteRun (fun _ => 0x20#8) base := by
  have ticks : ∀ (n : Nat) (s : State), s.started = true → s.events = List.replicate n 0x20#8 →
      ∃ t, runSteps n s = .next t := by
    intro n
    induction n with
    | zero => exact fun s _ _ => ⟨s, rfl⟩
    | succ n ih =>
      intro s started events
      have next : step s = .next { s with
          events := List.replicate n 0x20#8, tcnt := countAfterTick s, tov := tovAfterTick s } := by
        simp [step, fetchEvent, events, List.replicate_succ,
          show decodeEvent 0x20#8 = .ok .tick from rfl, exec, execTick, guarded, started, countAfterTick, tovAfterTick,
          atMax]
      obtain ⟨t, h⟩ := ih { s with
        events := List.replicate n 0x20#8, tcnt := countAfterTick s, tov := tovAfterTick s } started rfl
      exact ⟨t, by simp only [runSteps, next, h]⟩
  intro n
  simpa [FiniteRun, firstEvents] using ticks n (placeRun (List.replicate n 0x20#8) base) rfl rfl

end Sys2Proof.Machine.Tests
end

section
/-! PROOFS. Scope: the configuration that no event changes (O38) and the configurations that are refused (O57). -/

namespace Sys2Proof

/-! ### Well-formed configurations (spec/00_scope.md R10) -/

theorem RawParams.wellFormed_iff (r : RawParams) :
    r.wellFormed = true ↔ ¬(r.maxCount < 1 ∨ r.loadValue < 0 ∨ r.loadValue > r.maxCount) := by
  simp [RawParams.wellFormed, and_assoc]

theorem Params.ofRaw_of_not_wellFormed {r : RawParams} (h : ¬r.wellFormed = true) : Params.ofRaw r = none :=
  dif_neg h

/-- An accepted configuration loses nothing: its two counts are not negative, so they are the machine's own. -/
theorem Params.ofRaw_of_wellFormed {r : RawParams} (h : r.wellFormed = true) :
    ∃ p : Params, Params.ofRaw r = some p ∧ (p.maxCount : Int) = r.maxCount ∧ (p.loadValue : Int) = r.loadValue ∧
      p.restLevel = r.restLevel ∧ p.initPrevMovement = r.initPrevMovement := by
  have ranges := (RawParams.wellFormed_iff r).1 h
  have maxCount_nonneg : 0 ≤ r.maxCount := by omega
  have loadValue_nonneg : 0 ≤ r.loadValue := by omega
  exact ⟨_, dif_pos h, Int.toNat_of_nonneg maxCount_nonneg, Int.toNat_of_nonneg loadValue_nonneg, rfl, rfl⟩

end Sys2Proof

namespace Sys2Proof.Machine

/-! ### The fields that no event writes -/

/-- The frame of every µop on the model's own fields: a µop is ready only after `RESET`, and its rule writes registers
of the block alone. -/
theorem uop_keeps_cfg_events {u : Uop} {s t : State} (h : exec u.toInstr s = .next t) :
    t.cfg = s.cfg ∧ t.events = s.events ∧ t.started = true := by
  obtain ⟨⟨started, -, -⟩, next⟩ := uop_next h
  cases u
  case lookup =>
    obtain ⟨c, -, rfl⟩ := next
    exact ⟨rfl, rfl, started⟩
  case validate | update =>
    obtain ⟨_, _, -, -, rfl⟩ := next
    exact ⟨rfl, rfl, started⟩
  all_goals
    subst next
    exact ⟨rfl, rfl, started⟩

/-- The same frame for every instruction: `RESET` is what starts the run, every other event needs it started. -/
theorem exec_keeps_cfg_events {i : Instr} {s t : State} (h : exec i s = .next t) :
    t.cfg = s.cfg ∧ t.events = s.events ∧ t.started = true := by
  cases exec_next h with
  | reset _ _ eq => simp [eq]
  | input _ _ _ started eq => simp [eq, started]
  | tick _ started eq => simp [eq, started]
  | takePhase _ _ started _ _ eq => simp [eq, started]
  | takeTimer _ started _ _ _ eq => simp [eq, started]
  | uop _ _ _ eq => exact uop_keeps_cfg_events eq

/-- Settles O38: the frame of every instruction, from the cases of its next state. -/
theorem configurationIsFixed : Obligations.ConfigurationIsFixed := fun _ _ _ h => exec_keeps_cfg_events h

/-- Settles O57: R10's check is the negation of its three reasons to refuse, and decides between the two outcomes. -/
theorem illFormedConfigurationsAreRefused : Obligations.IllFormedConfigurationsAreRefused := by
  intro r
  refine ⟨fun illFormed => Params.ofRaw_of_not_wellFormed fun accepted => ?_, fun accepted => ?_⟩
  · exact (RawParams.wellFormed_iff r).1 accepted illFormed
  · exact Params.ofRaw_of_wellFormed ((RawParams.wellFormed_iff r).2 accepted)

end Sys2Proof.Machine
end

section
/-! PROOFS. Scope: the invariant at reset and at every step (O33 to O35), the writers of each register (O39, O40), and
the faulting reads of `UPDATE` and `VALIDATE` (O12). -/

namespace Sys2Proof.Machine

/-! ### Faulting reads (spec/10_state.md R22, spec/30_encoding.md R82) -/

theorem readMov_unwritten {s : State} (h : s.mov = none) : readMov s = .error .unwrittenScratch := by
  simp [readMov, readScratch, h]

theorem readCur_unwritten {s : State} (h : s.cur = none) : readCur s = .error .unwrittenScratch := by
  simp [readCur, readScratch, h]

theorem readMovement_bad : readMovement 0b10#2 = .error .badMovement := rfl

theorem readMov_bad {s : State} (h : s.mov = some 0b10#2) : readMov s = .error .badMovement := by
  simp [readMov, readScratch, h, readMovement_bad]

theorem readPmov_bad {s : State} (h : s.pmov = 0b10#2) : readPmov s = .error .badMovement := by
  simp [readPmov, h, readMovement_bad]

@[simp] theorem orFault_ok {α : Type} (v : α) (k : α → Result) : orFault (.ok v) k = k v := rfl

@[simp] theorem orFault_error {α : Type} (f : Fault) (k : α → Result) : orFault (.error f) k = .fault f := rfl

theorem update_of_ready {s : State} (ready : UopReady .update s) :
    exec .update s = orFault (readMov s) fun mov =>
      orFault (readCur s) fun cur => .next (advance { s with pmov := mov.code, prev := cur }) :=
  whenUop_of_ready ready

theorem update_fault_of_mov {s : State} {f : Fault} (ready : UopReady .update s) (mov : readMov s = .error f) :
    exec .update s = .fault f := by
  rw [update_of_ready ready, mov, orFault_error]

theorem update_fault_of_cur {s : State} {m : Movement} {f : Fault} (ready : UopReady .update s)
    (mov : readMov s = .ok m) (cur : readCur s = .error f) : exec .update s = .fault f := by
  rw [update_of_ready ready, mov, orFault_ok, cur, orFault_error]

theorem validate_of_ready {s : State} (ready : UopReady .validate s) :
    exec .validate s = orFault (readMov s) fun mov =>
      orFault (readPmov s) fun pmov =>
        .next { s with
          valid := some (validOf mov pmov), upc := bif validOf mov pmov then s.upc + 1#4 else skipTarget } :=
  whenUop_of_ready ready

theorem validate_fault_of_mov {s : State} {f : Fault} (ready : UopReady .validate s) (mov : readMov s = .error f) :
    exec .validate s = .fault f := by
  rw [validate_of_ready ready, mov, orFault_error]

theorem validate_fault_of_pmov {s : State} {m : Movement} {f : Fault} (ready : UopReady .validate s)
    (mov : readMov s = .ok m) (pmov : readPmov s = .error f) : exec .validate s = .fault f := by
  rw [validate_of_ready ready, mov, orFault_ok, pmov, orFault_error]

/-- Settles O12: the first read that fails is the µop's fault. -/
theorem badScratchReadsFault : Obligations.BadScratchReadsFault := fun _ =>
  ⟨fun ready mov => update_fault_of_mov ready (readMov_unwritten mov),
    fun _ ready mov cur => update_fault_of_cur ready (readMov_of mov) (readCur_unwritten cur),
    fun ready mov => update_fault_of_mov ready (readMov_bad mov),
    fun ready mov => validate_fault_of_mov ready (readMov_bad mov),
    fun _ ready mov pmov => validate_fault_of_pmov ready (readMov_of mov) (readPmov_bad pmov)⟩

/-! ### The writers of the registers -/

/-- The frame of a µop on the registers of the block: each has the one or two µops that write it (spec/10_state.md R20,
R21, R30 to R33, R36), the lines and the pending flags have none (R35, R38). -/
structure UopFrame (u : Uop) (s t : State) : Prop where
  prev : u ≠ .update → t.prev = s.prev
  pmov : u ≠ .update → t.pmov = s.pmov
  pin : u ≠ .toggle → t.pin = s.pin
  tie : u ≠ .arm → u ≠ .disarm → t.tie = s.tie
  tov : u ≠ .clrflag → t.tov = s.tov
  tcnt : u ≠ .load → t.tcnt = s.tcnt
  pendA : t.pendA = s.pendA
  pendB : t.pendB = s.pendB
  busy : u ≠ .reti → t.busy = s.busy
  inA : t.inA = s.inA
  inB : t.inB = s.inB

theorem uop_frame {u : Uop} {s t : State} (h : exec u.toInstr s = .next t) : UopFrame u s t := by
  obtain ⟨-, next⟩ := uop_next h
  cases u
  case lookup =>
    obtain ⟨c, -, rfl⟩ := next
    constructor <;> simp
  case validate | update =>
    obtain ⟨_, _, -, -, rfl⟩ := next
    constructor <;> simp
  all_goals
    subst next
    constructor <;> simp

/-- A pending flag is never cleared by an `INPUT` (R186). -/
theorem pendAfter_of_pending {pend old new : Bool} (h : pend = true) : pendAfter pend old new = true := by
  simp [pendAfter, h]

/-- `TAKE_PHASE` sets no pending flag and clears that of its source only (spec/60_exceptions.md R204). -/
theorem clearPending_keeps (src : PhaseSource) (s : State) :
    ((clearPending src s).pendA = true → s.pendA = true) ∧ ((clearPending src s).pendB = true → s.pendB = true) ∧
      (src ≠ .a → (clearPending src s).pendA = s.pendA) ∧ (src ≠ .b → (clearPending src s).pendB = s.pendB) := by
  cases src <;> simp

/-- Settles O39: of the events only `TICK` and `TAKE_TIMER` write such a register, the rest is the µops' frame. -/
theorem shaperRegisterWriters : Obligations.ShaperRegisterWriters := by
  intro i s t h notReset
  cases exec_next h with
  | reset isReset => exact absurd isReset notReset
  | input a b _ _ eq => simp [eq]
  | tick isTick _ eq => simp [eq, isTick]
  | takePhase src _ _ _ _ eq => simp [eq]
  | takeTimer isTimer _ _ _ _ eq => simp [eq, isTimer]
  | uop u executed _ run =>
    have frame := uop_frame run
    simp only [executed, ne_eq, Option.some.injEq]
    exact ⟨frame.pin, frame.tie, fun notClrflag _ _ => frame.tov notClrflag, fun notLoad _ => frame.tcnt notLoad⟩

/-- Settles O40: the events one by one, then the µops' frame. -/
theorem decoderAndInterruptWriters : Obligations.DecoderAndInterruptWriters := by
  intro i s t h notReset
  cases exec_next h with
  | reset isReset => exact absurd isReset notReset
  | input a b isInput _ eq => simp +contextual [eq, isInput, pendAfter_of_pending]
  | tick _ _ eq => simp [eq]
  | takePhase src isPhase _ _ _ eq =>
    obtain ⟨keepsA, keepsB, otherA, otherB⟩ := clearPending_keeps src s
    simp +contextual [eq, isPhase, keepsA, keepsB, otherA, otherB]
  | takeTimer isTimer _ _ _ _ eq => simp [eq, isTimer]
  | uop u executed ready run =>
    have frame := uop_frame run
    obtain ⟨-, running, -⟩ := ready
    simp only [executed, ne_eq, Option.some.injEq, frame.inA, frame.inB, frame.pendA, frame.pendB, running, imp_self,
      implies_true, true_and, forall_const]
    exact ⟨fun notUpdate => ⟨frame.prev notUpdate, frame.pmov notUpdate⟩,
      fun notReti => (frame.busy notReti).trans running⟩

/-! ### The invariant right after reset -/

theorem reset_unwritten : Unwritten State.reset := ⟨rfl, rfl, rfl, rfl⟩

/-- Settles O33: register by register. -/
theorem resetStateHasTheSpecValues : Obligations.ResetStateHasTheSpecValues :=
  ⟨rfl, rfl, rfl, reset_unwritten, rfl, rfl, rfl, rfl⟩

/-- Settles O34: no handler runs, the count is 0 and `PMOV` is the code of a movement. -/
theorem resetStateMeetsTheInvariant : Obligations.ResetStateMeetsTheInvariant where
  started := rfl
  pmov_legal := code_ne_bad Config.machine.initPrevMovement
  count_in_range := Nat.zero_le _
  handler := nofun
  idle _ := reset_unwritten

/-! ### The invariant along a step

A µop takes a handler from one µROM address to the next; the key fact is that it turns what `HandlerAt` says at the
first into what `HandlerAt` says at the second (`uop_keeps_handlerAt`). -/

/-- The invariant's handler clause says nothing of the lines, the pending flags, the timer, the pin and the events to
come, so a change of these keeps it (R182: `INPUT` and `TICK` may fall between the µops of a handler). -/
theorem BlockInv.of_other_registers {s : State} (inv : BlockInv s) (pin tov pendA pendB inA inB : Bool)
    (events : List EventWord) {n : Nat} (count : n ≤ s.cfg.maxCount) :
    BlockInv { s with
      pin := pin, tov := tov, tcnt := n, pendA := pendA, pendB := pendB, inA := inA, inB := inB, events := events } where
  started := inv.started
  pmov_legal := inv.pmov_legal
  count_in_range := count
  handler := inv.handler
  idle := inv.idle

/-- A tick keeps the count in `0..P_MAX_COUNT` (R157). -/
theorem countAfterTick_le {s : State} (h : s.tcnt ≤ s.cfg.maxCount) : countAfterTick s ≤ s.cfg.maxCount := by
  by_cases wrap : s.tcnt = s.cfg.maxCount
  · simp [countAfterTick, atMax, wrap]
  · have below : s.tcnt + 1 ≤ s.cfg.maxCount := by omega
    simpa [countAfterTick, atMax, wrap] using below

/-- `LOOKUP` leaves the looked-up transition. -/
theorem lookedUp_writeEntry {s : State} {c : PhasePair} (cur : s.cur = some c) :
    LookedUp (writeEntry (transCode s.prev c) s) :=
  ⟨c, cur, rfl, rfl⟩

/-- `UPDATE` records the looked-up transition. -/
theorem LookedUp.recorded_update {s : State} {m : Movement} {c : PhasePair} (looked : LookedUp s)
    (mov : s.mov = some m.code) (cur : s.cur = some c) (upc : Uaddr) :
    Recorded { s with pmov := m.code, prev := c, upc := upc } := by
  obtain ⟨c', cur', code, mov'⟩ := looked
  obtain rfl : c = c' := Option.some.inj (cur.symm.trans cur')
  have entry : m.code = (tableRead (transCode s.prev c)).code := Option.some.inj (mov.symm.trans mov')
  exact ⟨transCode s.prev c, code, by simpa using cur, by simp, mov', entry⟩

/-- A µop other than `RETI` leaves what holds at the next address of its handler. -/
theorem uop_keeps_handlerAt {u : Uop} {s t : State} (here : HandlerAt s.upc.toNat s) (notReti : u ≠ .reti)
    (h : exec u.toInstr s = .next t) : HandlerAt t.upc.toNat t := by
  obtain ⟨ready, next⟩ := uop_next h
  have upc := upc_of_ready ready
  cases u
  case sample =>
    subst next
    simp only [upc] at here ⊢
    obtain ⟨-, code, mov, valid⟩ := here
    exact ⟨⟨_, rfl⟩, code, mov, valid⟩
  case lookup =>
    obtain ⟨c, cur, rfl⟩ := next
    simp only [upc, writeEntry_upc] at here ⊢
    obtain ⟨-, -, -, valid⟩ := here
    exact ⟨lookedUp_writeEntry cur, valid⟩
  case validate =>
    obtain ⟨m, p, mov, pmov, rfl⟩ := next
    simp only [upc] at here ⊢
    obtain ⟨looked, -⟩ := here
    by_cases same : m = p
    · simp only [same, if_true, decide_true]
      exact ⟨looked, rfl, by simp [mov, pmov, same]⟩
    · simp only [same, if_false, decide_false]
      exact ⟨looked, by simp [mov, pmov, code_inj, same]⟩
  case clrflag | load =>
    subst next
    simp only [upc] at here ⊢
    exact here
  case toggle =>
    subst next
    rcases upc with upc | upc
    all_goals
      simp only [upc] at here ⊢
      exact here
  case arm =>
    subst next
    simp only [upc] at here ⊢
    obtain ⟨looked, valid, same⟩ := here
    exact ⟨looked, by simp [valid, same]⟩
  case update =>
    obtain ⟨m, c, mov, cur, rfl⟩ := next
    simp only [upc] at here ⊢
    obtain ⟨looked, valid⟩ := here
    exact ⟨looked.recorded_update mov cur _, by simp [valid]⟩
  case reti => exact absurd rfl notReti
  case disarm =>
    subst next
    simp only [upc] at here ⊢
    obtain ⟨unwritten, -⟩ := here
    exact ⟨unwritten, rfl⟩

/-- `PMOV` is written with a movement's code only (R82, R104). -/
theorem uop_keeps_pmov_legal {u : Uop} {s t : State} (legal : s.pmov ≠ 0b10#2) (h : exec u.toInstr s = .next t) :
    t.pmov ≠ 0b10#2 := by
  by_cases update : u = .update
  · subst update
    obtain ⟨-, m, c, -, -, rfl⟩ := uop_next h
    exact code_ne_bad m
  · rw [(uop_frame h).pmov update]
    exact legal

/-- `TCNT` is written by `LOAD` only, with `P_LOAD_VALUE`, which R10 keeps in range. -/
theorem uop_keeps_count {u : Uop} {s t : State} (count : s.tcnt ≤ s.cfg.maxCount) (h : exec u.toInstr s = .next t) :
    t.tcnt ≤ t.cfg.maxCount := by
  obtain ⟨cfg, -, -⟩ := uop_keeps_cfg_events h
  rw [cfg]
  by_cases load : u = .load
  · subst load
    obtain ⟨-, rfl⟩ := uop_next h
    exact s.cfg.loadValue_le
  · rw [(uop_frame h).tcnt load]
    exact count

theorem leaveHandler_inv {s : State} (inv : BlockInv s) : BlockInv (leaveHandler s) where
  started := inv.started
  pmov_legal := inv.pmov_legal
  count_in_range := inv.count_in_range
  handler := nofun
  idle _ := ⟨rfl, rfl, rfl, rfl⟩

theorem uop_keeps_inv {u : Uop} {s t : State} (inv : BlockInv s) (h : exec u.toInstr s = .next t) : BlockInv t := by
  obtain ⟨⟨_, running, _⟩, next⟩ := uop_next h
  by_cases reti : u = .reti
  · subst reti
    subst next
    exact leaveHandler_inv inv
  · have stillRunning : t.busy = true := ((uop_frame h).busy reti).trans running
    obtain ⟨-, -, started⟩ := uop_keeps_cfg_events h
    exact
      { started
        pmov_legal := uop_keeps_pmov_legal inv.pmov_legal h
        count_in_range := uop_keeps_count inv.count_in_range h
        handler := fun _ => uop_keeps_handlerAt (inv.handler running) reti h
        idle := fun idle => absurd idle (by simp [stillRunning]) }

theorem takePhase_inv {s : State} (inv : BlockInv s) (src : PhaseSource) :
    BlockInv (enterHandler phaseEntry (clearScratch (clearPending src s))) where
  started := by simpa using inv.started
  pmov_legal := by simpa using inv.pmov_legal
  count_in_range := by simpa using inv.count_in_range
  handler _ := ⟨rfl, rfl, rfl, rfl⟩
  idle := nofun

/-- `TAKE_TIMER` writes no scratch register; they are unwritten because no handler runs (log 17). -/
theorem takeTimer_inv {s : State} (inv : BlockInv s) (idle : s.busy = false) (armed : s.tie = true) :
    BlockInv (enterHandler timerEntry { s with tov := false }) where
  started := inv.started
  pmov_legal := inv.pmov_legal
  count_in_range := inv.count_in_range
  handler _ := ⟨inv.idle idle, armed⟩
  idle := nofun

/-- Every instruction keeps the invariant; `RESET` is refused in its states. -/
theorem exec_keeps_inv {i : Instr} {s t : State} (inv : BlockInv s) (h : exec i s = .next t) : BlockInv t := by
  cases exec_next h with
  | reset _ before => exact absurd inv.started (by simp [before])
  | input a b _ _ eq =>
    exact eq ▸ inv.of_other_registers s.pin s.tov _ _ a b s.events inv.count_in_range
  | tick _ _ eq =>
    exact eq ▸ inv.of_other_registers s.pin _ s.pendA s.pendB s.inA s.inB s.events
      (countAfterTick_le inv.count_in_range)
  | takePhase src _ _ _ _ eq => exact eq ▸ takePhase_inv inv src
  | takeTimer _ _ idle armed _ eq => exact eq ▸ takeTimer_inv inv idle armed
  | uop u _ _ run => exact uop_keeps_inv inv run

/-- Settles O35: a step is an instruction at the state with its word taken from the list, which the invariant does not
read. -/
theorem everyStepKeepsTheInvariant : Obligations.EveryStepKeepsTheInvariant := by
  intro s t inv h
  obtain ⟨_, rest, _, -, -, run⟩ := step_next h
  have taken : BlockInv { s with events := rest } :=
    inv.of_other_registers s.pin s.tov s.pendA s.pendB s.inA s.inB rest inv.count_in_range
  exact exec_keeps_inv taken run

end Sys2Proof.Machine
end

section
/-! PROOFS. Scope: the words of the three formats (O1 to O3), the step's refusals before an instruction runs (O5, O31),
the table entry that `LOOKUP` selects (O23), and the expansion of `RUNPHASE` (O56). -/

namespace Sys2Proof

/-! ### Every instruction's word decodes to it -/

theorem decode_encode (i : Instr) : decode (encode i) = .ok i := by
  cases i
  case input a b => cases a <;> cases b <;> rfl
  case takePhase source => cases source <;> rfl
  all_goals rfl

/-! ### No other word decodes to it, format by format -/

theorem encode_decodeTransCode (c : TransCode) : encode (decodeTransCode c) = .tc4 c := by
  revert c; decide

theorem encode_toInstr (u : Uop) : encode u.toInstr = .uop4 u.code := by cases u <;> rfl

/-- An event word is its two nibbles, `EOP` and `OPD` (spec/30_encoding.md R83). -/
theorem eop_append_opd (w : EventWord) : w.extractLsb' 4 4 ++ w.extractLsb' 0 4 = w :=
  (BitVec.extractLsb'_append_extractLsb'_eq_extractLsb' rfl).trans BitVec.extractLsb'_eq_self

/-- `INPUT`'s operand is the pair of its levels (R85). -/
theorem inputWord_eq {opd : BitVec 4} (h : opd.extractLsb' 2 2 = 0b00#2) :
    encode (.input (opd.getLsbD 1) (opd.getLsbD 0)) = .ev8 (0x1#4 ++ opd) := by
  revert opd; decide

/-- `TAKE_PHASE`'s operand is its source (R85). -/
theorem takePhaseWord_eq {opd : BitVec 4} (h : opd.extractLsb' 1 3 = 0b000#3) :
    encode (.takePhase (bif opd.getLsbD 0 then .b else .a)) = .ev8 (0x3#4 ++ opd) := by
  revert opd; decide

/-- Each branch of the event decoder fixes both nibbles but for the operand bits that it keeps (R84, R85). -/
theorem encode_of_decodeEvent {w : EventWord} {i : Instr} (h : decodeEvent w = .ok i) : encode i = .ev8 w := by
  rw [← eop_append_opd w]
  simp only [decodeEvent] at h
  generalize w.extractLsb' 4 4 = eop at h ⊢
  generalize w.extractLsb' 0 4 = opd at h ⊢
  split_ifs at h with reset input tick takePhase takeTimer step
  · obtain ⟨rfl, rfl⟩ := reset
    cases h; rfl
  · obtain ⟨rfl, operand⟩ := input
    cases h; exact inputWord_eq operand
  · obtain ⟨rfl, rfl⟩ := tick
    cases h; rfl
  · obtain ⟨rfl, operand⟩ := takePhase
    cases h; exact takePhaseWord_eq operand
  · obtain ⟨rfl, rfl⟩ := takeTimer
    cases h; rfl
  · obtain ⟨rfl, rfl⟩ := step
    cases h; rfl

theorem encode_of_decode {w : CodeWord} {i : Instr} (h : decode w = .ok i) : encode i = w := by
  cases w with
  | ev8 w => exact encode_of_decodeEvent h
  | uop4 c =>
    simp only [decode] at h
    cases decoded : decodeUop c with
    | ok u =>
      rw [decoded] at h
      cases h
      rw [encode_toInstr, ← Machine.decodeUop_ok decoded]
    | error e => rw [decoded] at h; cases h
  | tc4 c =>
    cases h
    exact encode_decodeTransCode c

/-- Settles O1: the encoder is a right inverse of the decoder, and in each format a left inverse. -/
theorem decodeOfEncodeIsTheInstruction : Obligations.DecodeOfEncodeIsTheInstruction :=
  ⟨fun i _ => decode_encode i, fun _ _ h => (encode_of_decode h).symm⟩

/-- Settles O3: a word that spells an instruction is its encoding; the others fall through their decode table. -/
theorem specWordsDecode : Obligations.SpecWordsDecode :=
  ⟨decode_encode (.input true false), decode_encode (.input false true), decode_encode (.takePhase .b),
    decode_encode .step, rfl, rfl, decode_encode .validate, decode_encode .disarm, rfl, decode_encode .tc_00_10,
    decode_encode .tc_11_10⟩

/-! ### The event words -/

theorem decodeEvent_of_encode {w : EventWord} {i : Instr} (h : encode i = .ev8 w) : decodeEvent w = .ok i := by
  have decoded := decode_encode i
  rwa [h] at decoded

/-- The event decoder has one reason to refuse (spec/30_encoding.md R88). -/
theorem decodeEvent_error {w : EventWord} {e : DecodeError} (h : decodeEvent w = .error e) : e = .reservedEvent := by
  simp only [decodeEvent] at h
  split_ifs at h
  cases h; rfl

/-- The nibbles of an event word: the opcode of an event (R84) with an operand that R85 admits. -/
def EventNibbles (eop opd : Nat) : Prop :=
  (eop = 1 ∧ opd < 4) ∨ (eop = 3 ∧ opd < 2) ∨ ((eop = 0 ∨ eop = 2 ∨ eop = 4 ∨ eop = 5) ∧ opd = 0)

theorem eventNibbles_of_encode {w : EventWord} {i : Instr} (h : encode i = .ev8 w) :
    EventNibbles (w.toNat / 16) (w.toNat % 16) := by
  unfold EventNibbles
  cases i
  case input a b => cases h; revert a b; decide
  case takePhase source => cases source <;> cases h <;> decide
  case reset | tick | takeTimer | step => cases h; decide
  all_goals cases h

theorem ofNat_nibbles (w : EventWord) : BitVec.ofNat 4 (w.toNat / 16) ++ BitVec.ofNat 4 (w.toNat % 16) = w := by
  have eop : BitVec.ofNat 4 (w.toNat / 16) = w.extractLsb' 4 4 :=
    BitVec.eq_of_toNat_eq (by simp [BitVec.extractLsb'_toNat, Nat.shiftRight_eq_div_pow])
  have opd : BitVec.ofNat 4 (w.toNat % 16) = w.extractLsb' 0 4 :=
    BitVec.eq_of_toNat_eq (by simp [BitVec.extractLsb'_toNat])
  rw [eop, opd, eop_append_opd]

theorem encode_of_eventNibbles {w : EventWord} (h : EventNibbles (w.toNat / 16) (w.toNat % 16)) :
    ∃ i, encode i = .ev8 w := by
  have levels : ∀ n < 4, (BitVec.ofNat 4 n).extractLsb' 2 2 = 0b00#2 := by decide
  have source : ∀ n < 2, (BitVec.ofNat 4 n).extractLsb' 1 3 = 0b000#3 := by decide
  rw [← ofNat_nibbles w]
  rcases h with ⟨eop, opd⟩ | ⟨eop, opd⟩ | ⟨eop | eop | eop | eop, opd⟩
  · rw [eop]; exact ⟨_, inputWord_eq (levels _ opd)⟩
  · rw [eop]; exact ⟨_, takePhaseWord_eq (source _ opd)⟩
  · rw [eop, opd]; exact ⟨.reset, rfl⟩
  · rw [eop, opd]; exact ⟨.tick, rfl⟩
  · rw [eop, opd]; exact ⟨.takeTimer, rfl⟩
  · rw [eop, opd]; exact ⟨.step, rfl⟩

/-- The rows of format EV8 are the six events (R93). -/
theorem event_of_encode {w : EventWord} {i : Instr} (h : encode i = .ev8 w) :
    i = .reset ∨ (∃ a b, i = .input a b) ∨ i = .tick ∨ (∃ c, i = .takePhase c) ∨ i = .takeTimer ∨ i = .step := by
  cases i
  case reset | input | tick | takePhase | takeTimer | step => simp
  all_goals cases h

/-- Settles O2: a word decodes to an instruction exactly where it is that instruction's encoding, and the encodings of
format EV8 are known nibble by nibble. -/
theorem eventWordsDecodeToSixEventsOrNone : Obligations.EventWordsDecodeToSixEventsOrNone := by
  intro w
  refine ⟨⟨fun ⟨_, h⟩ => eventNibbles_of_encode (encode_of_decodeEvent h), fun nibbles => ?_⟩,
    fun _ h => event_of_encode (encode_of_decodeEvent h), fun noEvent => ?_⟩
  · obtain ⟨i, h⟩ := encode_of_eventNibbles nibbles
    exact ⟨i, decodeEvent_of_encode h⟩
  · cases decoded : decodeEvent w with
    | ok i => exact absurd ⟨i, decoded⟩ noEvent
    | error e => rw [decodeEvent_error decoded]

end Sys2Proof

namespace Sys2Proof.Machine

/-! ### A step that runs no instruction (spec/30_encoding.md R88; log 1) -/

theorem step_of_reserved {s : State} {w : EventWord} {rest : List EventWord} {e : DecodeError}
    (events : s.events = w :: rest) (decoded : decodeEvent w = .error e) : step s = .refused .reservedEvent := by
  simp [step, fetchEvent, events, decoded]

theorem step_of_no_events {s : State} (events : s.events = []) : step s = .refused .noEvent := by
  simp [step, fetchEvent, events]

/-- Settles O5: the fetch refuses before any instruction runs. -/
theorem stepRefusesReservedWords : Obligations.StepRefusesReservedWords :=
  ⟨fun _ _ _ events decoded => step_of_reserved events decoded, fun _ events => step_of_no_events events⟩

/-! ### Before `RESET` (R90; log 2) -/

@[simp] theorem guarded_true (r : Refusal) (o : Result) : guarded true r o = o := rfl

@[simp] theorem guarded_false (r : Refusal) (o : Result) : guarded false r o = .refused r := rfl

/-- A guard that does not hold is the answer, whatever it guards. -/
theorem guarded_refused {ok : Bool} (h : ok = false) (r : Refusal) (o : Result) : guarded ok r o = .refused r := by
  rw [h, guarded_false]

/-- A µop's Enabled line asks for `RESET` to have been executed. -/
theorem not_ready_of_not_started {s : State} (before : s.started = false) (u : Uop) : ¬UopReady u s :=
  fun ⟨started, _⟩ => absurd started (by simp [before])

/-- Settles O31: the five other events ask for `RESET` first, and no µop is ready without it. -/
theorem eventsBeforeResetAreRefused : Obligations.EventsBeforeResetAreRefused := by
  intro s i before notReset
  cases i
  case reset => exact absurd rfl notReset
  case input | tick | takePhase | takeTimer | step => exact ⟨_, guarded_refused before _ _⟩
  all_goals exact ⟨_, whenUop_of_not_ready (not_ready_of_not_started before _)⟩

/-! ### The table entry that `LOOKUP` selects (spec/40_decoder.md R102; log 13) -/

/-- The 16 rows of format TC4 are one operation at their codes. -/
theorem exec_of_encode_tc4 {i : Instr} {k : TransCode} (h : encode i = .tc4 k) (s : State) :
    exec i s = selectEntry k s := by
  cases i
  case takePhase source => cases source <;> cases h
  all_goals cases h
  all_goals rfl

theorem exec_decodeTransCode (k : TransCode) (s : State) : exec (decodeTransCode k) s = selectEntry k s :=
  exec_of_encode_tc4 (encode_decodeTransCode k) s

theorem lookup_of_ready {s : State} {c : PhasePair} (ready : UopReady .lookup s) (cur : s.cur = some c) :
    exec .lookup s = .next (writeEntry (transCode s.prev c) s) := by
  simp [exec, execLookup, whenUop_of_ready ready, readCur_of cur]

theorem selectEntry_of_ready {s : State} {c : PhasePair} (ready : UopReady .lookup s) (cur : s.cur = some c)
    (k : TransCode) :
    selectEntry k s = guarded (decide (transCode s.prev c = k)) .codeNotSelected (.next (writeEntry k s)) := by
  simp [selectEntry, whenUop_of_ready ready, readCur_of cur]

/-- Settles O23: where `LOOKUP` is ready a table row asks only whether its code is `{PREV, CUR}`. -/
theorem lookupTakesTheSelectedEntry : Obligations.LookupTakesTheSelectedEntry := by
  intro s c k ready cur
  rw [exec_decodeTransCode, selectEntry_of_ready ready cur]
  refine ⟨fun hit => ?_, fun miss => guarded_refused (decide_eq_false (Ne.symm miss)) _ _⟩
  subst hit
  rw [lookup_of_ready ready cur, transCode, decide_eq_true rfl, guarded_true]

/-! ### The run of the phase-change handler (spec/42_sequencing.md R181, R182)

A handler at a µROM address executes the µop there; `stepsToEnd` is then counted from the handler's end backwards. -/

/-- A handler runs and the next µop is the one at this µROM address. -/
structure AtAddress (a : Uaddr) (s : State) : Prop where
  started : s.started = true
  busy : s.busy = true
  upc : s.upc = a

theorem AtAddress.ready {a : Uaddr} {s : State} {u : Uop} (here : AtAddress a s) (element : uromRead a = some u.code) :
    UopReady u s :=
  ⟨here.started, here.busy, here.upc ▸ element⟩

@[simp] theorem decodeUop_code (u : Uop) : decodeUop u.code = .ok u := by cases u <;> rfl

theorem fetchUop_of_ready {u : Uop} {s : State} (ready : UopReady u s) : fetchUop s = .ok u := by
  obtain ⟨-, -, element⟩ := ready
  simp [fetchUop, element]

/-- `STEP` where a µop is ready is that µop (R180). -/
theorem step_of_ready {u : Uop} {s : State} (ready : UopReady u s) : exec .step s = exec u.toInstr s :=
  execStep_of_fetch ready.1 ready.2.1 (fetchUop_of_ready ready)

theorem update_next_of_ready {s : State} {m : Movement} {c : PhasePair} (ready : UopReady .update s)
    (mov : s.mov = some m.code) (cur : s.cur = some c) :
    exec .update s = .next (advance { s with pmov := m.code, prev := c }) := by
  rw [update_of_ready ready, readMov_of mov, orFault_ok, readCur_of cur, orFault_ok]

theorem validate_next_of_ready {s : State} {m p : Movement} (ready : UopReady .validate s) (mov : s.mov = some m.code)
    (pmov : s.pmov = p.code) :
    exec .validate s =
      .next { s with valid := some (decide (m = p)), upc := bif decide (m = p) then s.upc + 1#4 else skipTarget } := by
  rw [validate_of_ready ready, readMov_of mov, orFault_ok, readPmov_of pmov, orFault_ok]
  simp only [validOf, toInt_inj]

theorem takePhase_of_enabled {src : PhaseSource} {s : State} (started : s.started = true) (idle : s.busy = false)
    (pend : pending src s = true) :
    exec (.takePhase src) s = .next (enterHandler phaseEntry (clearScratch (clearPending src s))) := by
  simp [exec, execTakePhase, phaseEnabled, started, idle, pend]

theorem stepsToEnd_idle {s : State} (idle : s.busy = false) (n : Nat) : stepsToEnd n s = some [] := by
  cases n <;> simp [stepsToEnd, idle]

/-- One `STEP` more, by the µop that it executes. -/
theorem stepsToEnd_succ {a : Uaddr} {u : Uop} {n k : Nat} {s t : State} (here : AtAddress a s)
    (element : uromRead a = some u.code) (next : exec u.toInstr s = .next t)
    (rest : stepsToEnd n t = some (List.replicate k .step)) :
    stepsToEnd (n + 1) s = some (List.replicate (k + 1) .step) := by
  rw [← step_of_ready (here.ready element)] at next
  simp [stepsToEnd, here.busy, next, rest, List.replicate_succ]

theorem stepsToEnd_reti {s : State} (here : AtAddress 8#4 s) (n : Nat) :
    stepsToEnd (n + 1) s = some (List.replicate 1 .step) :=
  stepsToEnd_succ (u := .reti) here rfl (whenUop_of_ready (here.ready rfl)) (stepsToEnd_idle rfl n)

/-- A handler at an address from which `UPDATE` can still be executed: it reads `MOV` and `CUR` (R104). -/
structure LookedUpAt (a : Uaddr) (s : State) : Prop extends AtAddress a s where
  mov : ∃ m : Movement, s.mov = some m.code
  cur : ∃ c, s.cur = some c

theorem stepsToEnd_update {s : State} (here : LookedUpAt 7#4 s) (n : Nat) :
    stepsToEnd (n + 2) s = some (List.replicate 2 .step) := by
  obtain ⟨m, mov⟩ := here.mov
  obtain ⟨c, cur⟩ := here.cur
  have next := update_next_of_ready (here.ready rfl) mov cur
  refine stepsToEnd_succ (u := .update) here.toAtAddress rfl next (stepsToEnd_reti ?_ n)
  exact ⟨here.started, here.busy, by simp [here.upc]⟩

/-- The Shaper's µops complete, and touch nothing that a later µop of the handler reads. -/
theorem shaper_next_of_ready {u : Uop} {s : State} (shaper : u ∈ [Uop.clrflag, .load, .toggle, .arm, .disarm])
    (ready : UopReady u s) :
    ∃ t, exec u.toInstr s = .next t ∧ t.started = s.started ∧ t.busy = s.busy ∧ t.upc = s.upc + 1#4 ∧ t.mov = s.mov ∧
      t.cur = s.cur := by
  cases u
  case clrflag | load | toggle | arm | disarm =>
    exact ⟨advance _, whenUop_of_ready ready, rfl, rfl, rfl, rfl, rfl⟩
  all_goals simp at shaper

theorem stepsToEnd_shaper {a : Uaddr} {u : Uop} {n k : Nat} {s : State} (here : LookedUpAt a s)
    (shaper : u ∈ [Uop.clrflag, .load, .toggle, .arm, .disarm]) (element : uromRead a = some u.code)
    (rest : ∀ t, LookedUpAt (a + 1#4) t → stepsToEnd n t = some (List.replicate k .step)) :
    stepsToEnd (n + 1) s = some (List.replicate (k + 1) .step) := by
  obtain ⟨t, next, started, busy, upc, mov, cur⟩ := shaper_next_of_ready shaper (here.ready element)
  refine stepsToEnd_succ here.toAtAddress element next (rest t ?_)
  exact
    { started := started.trans here.started
      busy := busy.trans here.busy
      upc := by rw [upc, here.upc]
      mov := mov ▸ here.mov
      cur := cur ▸ here.cur }

/-- The arm sequence, `CLRFLAG` to `ARM`, then `UPDATE` and `RETI`: the six µops from address 3 (R181). -/
theorem stepsToEnd_armSequence {s : State} (atClrflag : LookedUpAt 3#4 s) (n : Nat) :
    stepsToEnd (n + 6) s = some (List.replicate 6 .step) :=
  stepsToEnd_shaper (u := .clrflag) atClrflag (by simp) rfl fun _ atLoad =>
    stepsToEnd_shaper (u := .load) atLoad (by simp) rfl fun _ atToggle =>
      stepsToEnd_shaper (u := .toggle) atToggle (by simp) rfl fun _ atArm =>
        stepsToEnd_shaper (u := .arm) atArm (by simp) rfl fun _ atUpdate => stepsToEnd_update atUpdate n

/-- `VALIDATE` goes on to the arm sequence or skips it (R103). -/
theorem stepsToEnd_validate {s : State} {m p : Movement} {c : PhasePair} (here : AtAddress 2#4 s)
    (mov : s.mov = some m.code) (pmov : s.pmov = p.code) (cur : s.cur = some c) :
    stepsToEnd 7 s = some (List.replicate (if m = p then 7 else 3) .step) := by
  have next := validate_next_of_ready (here.ready rfl) mov pmov
  by_cases valid : m = p
  · rw [if_pos valid]
    refine stepsToEnd_succ (u := .validate) here rfl next (stepsToEnd_armSequence ?_ 0)
    exact ⟨⟨here.started, here.busy, by simp [valid, here.upc]⟩, ⟨m, mov⟩, c, cur⟩
  · rw [if_neg valid]
    refine stepsToEnd_succ (u := .validate) here rfl next (stepsToEnd_update ?_ 4)
    exact ⟨⟨here.started, here.busy, by simp [valid, skipTarget]⟩, ⟨m, mov⟩, c, cur⟩

theorem stepsToEnd_lookup {s : State} {p : Movement} {c : PhasePair} (here : AtAddress 1#4 s)
    (pmov : s.pmov = p.code) (cur : s.cur = some c) :
    stepsToEnd 8 s = some (List.replicate ((if tableRead (transCode s.prev c) = p then 7 else 3) + 1) .step) := by
  refine stepsToEnd_succ (u := .lookup) here rfl (lookup_of_ready (here.ready rfl) cur)
    (stepsToEnd_validate ?_ rfl pmov cur)
  exact ⟨here.started, here.busy, by simp [here.upc]⟩

theorem stepsToEnd_sample {s : State} {p : Movement} (here : AtAddress 0#4 s) (pmov : s.pmov = p.code) :
    stepsToEnd 9 s =
      some (List.replicate ((if tableRead (transCode s.prev (inPair s)) = p then 7 else 3) + 2) .step) := by
  refine stepsToEnd_succ (u := .sample) here rfl (whenUop_of_ready (here.ready rfl)) (stepsToEnd_lookup ?_ pmov rfl)
  exact ⟨here.started, here.busy, by simp [here.upc]⟩

/-! ### The expansion of `RUNPHASE` (spec/30_encoding.md R92) -/

/-- Every `STEP` of an expansion was enabled where it stands. -/
theorem execAll_of_stepsToEnd {n : Nat} {s : State} {is : List Instr} (h : stepsToEnd n s = some is) :
    (execAll is s).isSome = true := by
  induction n generalizing s is with
  | zero =>
    obtain ⟨-, rfl⟩ : s.busy = false ∧ [] = is := by simpa [stepsToEnd] using h
    rfl
  | succ n ih =>
    cases busy : s.busy with
    | false =>
      cases (stepsToEnd_idle busy (n + 1)).symm.trans h
      rfl
    | true =>
      simp only [stepsToEnd, busy, if_true] at h
      cases next : exec .step s with
      | next t =>
        simp only [next, Option.map_eq_some_iff] at h
        obtain ⟨rest, counted, rfl⟩ := h
        rw [execAll_cons next]
        exact ih counted
      | fault f => simp [next] at h
      | refused r => simp [next] at h

/-- `RUNPHASE` after its dispatch is the handler's run, each event of it enabled. -/
theorem expand_runPhase {src : PhaseSource} {s t : State} {steps : List Instr}
    (dispatch : exec (.takePhase src) s = .next t) (run : stepsToEnd 9 t = some steps) :
    expand (.runPhase src) s = some (.takePhase src :: steps) := by
  have enabled : (execAll (.takePhase src :: steps) s).isSome = true := by
    rw [execAll_cons dispatch]
    exact execAll_of_stepsToEnd run
  simp [expand, expandRaw, expandRunPhase, dispatch, run, enabled]

/-- Settles O56: the dispatch enters the handler at `SAMPLE`, whose run to `RETI` takes 9 or 5 `STEP`s. -/
theorem runPhaseExpandsToFiveOrNineSteps : Obligations.RunPhaseExpandsToFiveOrNineSteps := by
  intro s src started idle pend legal
  obtain ⟨p, pmov⟩ := exists_code legal
  have dispatch := takePhase_of_enabled started idle pend
  have entered : AtAddress 0#4 (enterHandler phaseEntry (clearScratch (clearPending src s))) :=
    ⟨by simpa using started, rfl, rfl⟩
  have run := stepsToEnd_sample (p := p) entered (by simpa using pmov)
  have pair : inPair (enterHandler phaseEntry (clearScratch (clearPending src s))) = inPair s := by simp [inPair]
  have validated : tableRead (transCode s.prev (inPair s)) = p ↔ (tableRead (s.prev ++ inPair s)).code = s.pmov := by
    rw [pmov, code_inj, transCode]
  rw [expand_runPhase dispatch run, pair, enterHandler_prev, clearScratch_prev, clearPending_prev]
  simp only [validated]
  split <;> rfl

end Sys2Proof.Machine
end

section
/-! PROOFS. Scope: the swap of the two phases (O46): how it acts on pairs, movements and words, that it commutes with
every event, and what that gives along a run (spec/40_decoder.md R132, first change). -/

namespace Sys2Proof.Machine

/-! ### Pairs, codes and movements -/

theorem swapPair_phasePair (a b : Bool) : swapPair (phasePair a b) = phasePair b a := by revert a b; decide

theorem swapCode_transCode (p c : PhasePair) : swapCode (transCode p c) = transCode (swapPair p) (swapPair c) := by
  simp [swapCode]

theorem code_negMovement (m : Movement) : (negMovement m).code = -m.code := by cases m <;> rfl

theorem ofCode_neg (c : MovementCode) : Movement.ofCode (-c) = (Movement.ofCode c).map negMovement := by
  revert c; decide

/-- The swapped transition moves the other way: the heart of R132. -/
theorem tableRead_swap (p c : PhasePair) :
    tableRead (transCode (swapPair p) (swapPair c)) = negMovement (tableRead (transCode p c)) := by
  revert p c; decide

/-- Both movements negated are as equal as before. -/
theorem validOf_neg (m p : Movement) : validOf (negMovement m) (negMovement p) = validOf m p := by
  cases m <;> cases p <;> rfl

/-! ### Event words -/

/-- The swap of an event is an event, spelled by the swapped word. -/
theorem encode_swapInstr {i : Instr} {w : EventWord} (h : encode i = .ev8 w) :
    encode (swapInstr i) = .ev8 ((eventWord (swapInstr i)).getD w) := by
  cases i
  case takePhase src => cases src <;> rfl
  case reset | input | tick | takeTimer | step => rfl
  all_goals cases h

theorem decodeEvent_swapWord (w : EventWord) : decodeEvent (swapWord w) = (decodeEvent w).map swapInstr := by
  cases decoded : decodeEvent w with
  | ok i =>
    simpa [swapWord, decoded, Except.map] using
      decodeEvent_of_encode (encode_swapInstr (encode_of_decodeEvent decoded))
  | error e => simp [swapWord, decoded, Except.map]

/-! ### Outcomes and reads -/

theorem guarded_swap {ok ok' : Bool} {r : Refusal} {o o' : Result} (same : ok' = ok) (h : o' = swapResult o) :
    guarded ok' r o' = swapResult (guarded ok r o) := by
  subst same h
  cases ok' <;> rfl

/-- A read that the swap changes by `f`, gone on with on both sides. -/
theorem orFault_swap {α : Type} {x x' : Except Fault α} {f : α → α} {k k' : α → Result} (read : x' = x.map f)
    (h : ∀ v, k' (f v) = swapResult (k v)) : orFault x' k' = swapResult (orFault x k) := by
  subst read
  cases x
  · rfl
  · exact h _

theorem readScratch_map {α : Type} (r : Option α) (f : α → α) : readScratch (r.map f) = (readScratch r).map f := by
  cases r <;> rfl

theorem readMovement_neg (c : MovementCode) : readMovement (-c) = (readMovement c).map negMovement := by
  simp only [readMovement, ofCode_neg]
  cases Movement.ofCode c <;> rfl

theorem readPmov_swap (s : State) : readPmov (swapPhases s) = (readPmov s).map negMovement := readMovement_neg s.pmov

theorem readCur_swap (s : State) : readCur (swapPhases s) = (readCur s).map swapPair := readScratch_map s.cur swapPair

theorem readMov_swap (s : State) : readMov (swapPhases s) = (readMov s).map negMovement := by
  cases written : s.mov with
  | none => simp [readMov, swapPhases, written, readScratch, Except.map]
  | some c => simpa [readMov, swapPhases, written, readScratch] using readMovement_neg c

theorem inPair_swap (s : State) : inPair (swapPhases s) = swapPair (inPair s) := (swapPair_phasePair s.inA s.inB).symm

/-! ### The µops -/

theorem writeEntry_swap (p c : PhasePair) (s : State) :
    writeEntry (transCode (swapPair p) (swapPair c)) (swapPhases s) = swapPhases (writeEntry (transCode p c) s) := by
  simp [writeEntry, advance, swapPhases, tableRead_swap, code_negMovement, swapCode_transCode]

/-- Every µop of the swapped block is the swap of the µop: the Shaper's and `RETI` touch nothing that is swapped. -/
theorem uop_swap (u : Uop) (s : State) : exec u.toInstr (swapPhases s) = swapResult (exec u.toInstr s) := by
  cases u
  case sample =>
    refine guarded_swap rfl ?_
    rw [inPair_swap]
    rfl
  case lookup =>
    refine guarded_swap rfl (orFault_swap (readCur_swap s) fun c => ?_)
    exact congrArg Host.Outcome.next (writeEntry_swap s.prev c s)
  case validate =>
    refine guarded_swap rfl (orFault_swap (readMov_swap s) fun m => orFault_swap (readPmov_swap s) fun p => ?_)
    simp [swapResult, swapPhases, validOf_neg]
  case update =>
    refine guarded_swap rfl (orFault_swap (readMov_swap s) fun m => orFault_swap (readCur_swap s) fun c => ?_)
    simp [swapResult, swapPhases, advance, code_negMovement]
  all_goals exact guarded_swap rfl rfl

/-! ### The events -/

theorem fetchUop_swap (s : State) : fetchUop (swapPhases s) = (fetchUop s).map id := by
  cases fetched : fetchUop s <;> exact fetched

/-- `TAKE_PHASE` of the swapped block takes the other source. -/
theorem takePhase_swap (src : PhaseSource) (s : State) :
    exec (swapInstr (.takePhase src)) (swapPhases s) = swapResult (exec (.takePhase src) s) := by
  cases src <;> exact guarded_swap rfl (guarded_swap rfl rfl)

theorem step_event_swap (s : State) : exec .step (swapPhases s) = swapResult (exec .step s) := by
  refine guarded_swap rfl (guarded_swap rfl (orFault_swap (fetchUop_swap s) fun u => ?_))
  rw [id, runUop_eq_exec, runUop_eq_exec]
  exact uop_swap u s

/-- After `RESET`, which is refused then, every event of the swapped block is the swap of the event. -/
theorem event_swap {i : Instr} {w : EventWord} {s : State} (event : encode i = .ev8 w) (started : s.started = true) :
    exec (swapInstr i) (swapPhases s) = swapResult (exec i s) := by
  cases i
  case reset =>
    have refused : (!s.started) = false := by simp [started]
    exact (guarded_refused refused _ _).trans (congrArg swapResult (guarded_refused refused _ _)).symm
  case input | tick => exact guarded_swap rfl rfl
  case takePhase src => exact takePhase_swap src s
  case takeTimer => exact guarded_swap rfl (guarded_swap rfl rfl)
  case step => exact step_event_swap s
  all_goals cases event

/-! ### Steps and runs -/

/-- The diagram of the swap commutes for a step. -/
theorem step_swap {s : State} (started : s.started = true) : step (swapPhases s) = swapResult (step s) := by
  cases events : s.events with
  | nil =>
    rw [step_of_no_events events, step_of_no_events (s := swapPhases s) (by simp [swapPhases, events])]
    rfl
  | cons w rest =>
    have swapped : (swapPhases s).events = swapWord w :: rest.map swapWord := by simp [swapPhases, events]
    have word := decodeEvent_swapWord w
    cases decoded : decodeEvent w with
    | ok i =>
      rw [decoded] at word
      have run : step s = exec i { s with events := rest } := by simp [step, fetchEvent, events, decoded]
      have event := event_swap (s := { s with events := rest }) (encode_of_decodeEvent decoded) started
      rw [run, ← event]
      simp only [step, fetchEvent, swapped, word, Except.map]
      rfl
    | error e =>
      rw [decoded] at word
      rw [step_of_reserved events decoded, step_of_reserved swapped word]
      rfl

/-- The diagram of the swap commutes for a run, since no step leaves the states after `RESET`. -/
theorem runSteps_swap {k : Nat} {s t : State} (started : s.started = true) (run : runSteps k s = .next t) :
    runSteps k (swapPhases s) = .next (swapPhases t) := by
  induction k generalizing s with
  | zero =>
    cases run
    rfl
  | succ k ih =>
    obtain ⟨u, first, rest⟩ := runSteps_succ run
    obtain ⟨_, _, _, -, -, executed⟩ := step_next first
    obtain ⟨-, -, startedU⟩ := exec_keeps_cfg_events executed
    simp only [runSteps, step_swap started, first, swapResult]
    exact ih startedU rest

/-- Settles O46: the run of the swapped block ends in the swap of the end, which keeps `PIN`, `TIE` and the timer. -/
theorem swappingThePhasesChangesNoPulse : Obligations.SwappingThePhasesChangesNoPulse :=
  ⟨fun _ started => step_swap started,
    fun _ _ t started run => ⟨swapPhases t, runSteps_swap started run, rfl, rfl, rfl, rfl⟩⟩

end Sys2Proof.Machine
end

section
/-! PROOFS. Scope: the Decoder's µops (O8 to O11), what `UPDATE` leaves (O43), the entries of the movement table (O20 to
O22) and their antisymmetry (O24). -/

namespace Sys2Proof.Machine

/-! ### The µops `SAMPLE` and `UPDATE` (spec/40_decoder.md R101, R104) -/

/-- Settles O8: where it is ready, `SAMPLE` is its effect. -/
theorem sampleReadsBothLines : Obligations.SampleReadsBothLines := fun _ ready => whenUop_of_ready ready

/-- Settles O11: both reads succeed, and `VALID` is not one of them. -/
theorem updateRecordsTheTransition : Obligations.UpdateRecordsTheTransition := fun _ _ _ ready mov cur =>
  update_next_of_ready ready mov cur

/-- Settles O43: `UPDATE` takes the handler to address 8, where the invariant says that the transition is recorded. -/
theorem prevIsTheLowPairOfTheCode : Obligations.PrevIsTheLowPairOfTheCode := by
  intro s t inv h
  obtain ⟨ready, m, c, -, -, eq⟩ := execUpdate_next h
  have here : HandlerAt s.upc.toNat s := inv.handler ready.2.1
  have there := uop_keeps_handlerAt (u := .update) here (by decide) h
  have upc : t.upc = 8#4 := by rw [eq]; simp [show s.upc = 7#4 from upc_of_ready ready]
  rw [upc] at there
  obtain ⟨⟨k, code, cur, prev, -, -⟩, -⟩ := there
  exact ⟨k, code, prev, prev ▸ cur⟩

/-! ### The µop `LOOKUP` and the table's entries (R102, R110 to R126) -/

/-- R126's array, indexed by the code as a number, is the table. -/
theorem movementArray_eq_tableRead (p c : PhasePair) :
    [0, -1, 1, 0, 1, 0, 0, -1, -1, 0, 0, 1, 0, 1, -1, 0][4 * p.toNat + c.toNat]? =
      some (tableRead (transCode p c)).toInt := by
  revert p c; decide

theorem lookup_fault_of_cur {s : State} (ready : UopReady .lookup s) (cur : s.cur = none) :
    exec .lookup s = .fault .unwrittenScratch := by
  simp [exec, execLookup, whenUop_of_ready ready, readCur_unwritten cur]

/-- Settles O9: the movement is the table's at the code that `LOOKUP` forms. -/
theorem lookupFormsCodeAndMovement : Obligations.LookupFormsCodeAndMovement := fun s =>
  ⟨fun c ready cur =>
      ⟨tableRead (transCode s.prev c), movementArray_eq_tableRead s.prev c, lookup_of_ready ready cur⟩,
    lookup_fault_of_cur⟩

/-- A table row is taken where `LOOKUP` is ready and forms its code. -/
theorem tableRow_next {i : Instr} {s : State} {p c : PhasePair} (row : encode i = .tc4 (transCode p c))
    (ready : UopReady .lookup s) (prev : s.prev = p) (cur : s.cur = some c) :
    exec i s = .next (writeEntry (transCode p c) s) := by
  rw [exec_of_encode_tc4 row, selectEntry_of_ready ready cur, prev, decide_eq_true rfl, guarded_true]

/-- A list of table rows, each with the two pairs of its code, whose entries are all one movement. -/
def RowsMove (m : Movement) (rows : List (Instr × PhasePair × PhasePair)) : Prop :=
  ∀ row ∈ rows, encode row.1 = .tc4 (transCode row.2.1 row.2.2) ∧ tableRead (transCode row.2.1 row.2.2) = m

theorem RowsMove.next {m : Movement} {rows : List (Instr × PhasePair × PhasePair)} (move : RowsMove m rows) (s : State)
    (i : Instr) (p c : PhasePair) (listed : (i, p, c) ∈ rows) (ready : UopReady .lookup s) (prev : s.prev = p)
    (cur : s.cur = some c) :
    exec i s = .next { s with code := some (p ++ c), mov := some m.code, upc := s.upc + 1#4 } := by
  obtain ⟨row, entry⟩ := move _ listed
  rw [tableRow_next row ready prev cur, ← entry]
  rfl

/-- Settles O20: the eight rows of no change and of double change hold movement 0. -/
theorem zeroMovementEntries : Obligations.ZeroMovementEntries :=
  RowsMove.next (m := .zero) (by unfold RowsMove; decide)

/-- Settles O21: the four rows of the cycle 00, 10, 11, 01, 00 hold movement +1. -/
theorem plusMovementEntries : Obligations.PlusMovementEntries :=
  RowsMove.next (m := .plus) (by unfold RowsMove; decide)

/-- Settles O22: the four rows of the reverse cycle hold movement −1. -/
theorem minusMovementEntries : Obligations.MinusMovementEntries :=
  RowsMove.next (m := .minus) (by unfold RowsMove; decide)

/-- Settles O24: each `LOOKUP` writes the entry of its code, and the two codes are each other's reverse. -/
theorem reverseTransitionsHaveOppositeMovements : Obligations.ReverseTransitionsHaveOppositeMovements := by
  intro s t s' t' p c _ prevS curS prevT curT lookupS lookupT
  obtain ⟨-, c', curS', rfl⟩ := execLookup_next lookupS
  obtain ⟨-, p', curT', rfl⟩ := execLookup_next lookupT
  obtain rfl : c = c' := Option.some.inj (curS.symm.trans curS')
  obtain rfl : p = p' := Option.some.inj (curT.symm.trans curT')
  exact ⟨_, rfl, by rw [writeEntry_mov, prevS, prevT, tableRead_reverse]⟩

/-! ### The µop `VALIDATE` (R103) -/

/-- Settles O10: equal as integers is equal as movements; from address 2 the next one is 3 and the skip goes to 7. -/
theorem validateComparesMovements : Obligations.ValidateComparesMovements := by
  refine fun s => ⟨fun m p ready mov pmov => ?_, fun ready mov => validate_fault_of_mov ready (readMov_unwritten mov)⟩
  have upc : s.upc = 2#4 := upc_of_ready ready
  have next := validate_next_of_ready ready mov pmov
  rw [upc] at next
  refine ⟨fun equal => ?_, fun unequal => ?_⟩
  · rw [next, decide_eq_true (toInt_inj.1 equal)]; rfl
  · rw [next, decide_eq_false (mt toInt_inj.2 unequal)]; rfl

end Sys2Proof.Machine
end

section
/-! PROOFS. Scope: the run of the phase-change handler with nothing between its `STEP`s, as its effect on the state
(spec/42_sequencing.md R190), and from it the pin after a program of edges (O55). -/

namespace Sys2Proof.Machine

/-! ### The run of the phase-change handler, address by address (spec/42_sequencing.md R181) -/

theorem execAll_steps_succ {a : Uaddr} {u : Uop} {s t : State} (here : AtAddress a s)
    (element : uromRead a = some u.code) (next : exec u.toInstr s = .next t) (n : Nat) :
    execAll (List.replicate (n + 1) .step) s = execAll (List.replicate n .step) t := by
  rw [← step_of_ready (here.ready element)] at next
  rw [List.replicate_succ, execAll_cons next]

/-- A µop whose rule is `advance` after a write, then the rest of the handler from the next address. -/
theorem execAll_steps_advance {a : Uaddr} {u : Uop} {s t : State} {n : Nat} {final : Option State}
    (here : AtAddress a s) (element : uromRead a = some u.code)
    (rule : UopReady u s → exec u.toInstr s = .next (advance t))
    (started : t.started = s.started) (busy : t.busy = s.busy) (upc : t.upc = s.upc)
    (rest : AtAddress (a + 1#4) (advance t) → execAll (List.replicate n .step) (advance t) = final) :
    execAll (List.replicate (n + 1) .step) s = final := by
  rw [execAll_steps_succ here element (rule (here.ready element))]
  exact rest ⟨started.trans here.started, busy.trans here.busy, by rw [advance_upc, upc, here.upc]⟩

theorem execAll_reti {s : State} (here : AtAddress 8#4 s) :
    execAll (List.replicate 1 .step) s = some (leaveHandler s) :=
  execAll_steps_succ (u := .reti) here rfl (whenUop_of_ready (here.ready rfl)) 0

/-- From address 7: the transition is recorded and the handler ends. -/
theorem execAll_update {s : State} {m : Movement} {c : PhasePair} (here : AtAddress 7#4 s) (mov : s.mov = some m.code)
    (cur : s.cur = some c) :
    execAll (List.replicate 2 .step) s = some (leaveHandler { s with pmov := m.code, prev := c }) :=
  execAll_steps_advance (u := .update) here rfl (fun ready => update_next_of_ready ready mov cur) rfl rfl rfl
    execAll_reti

/-- The state at `UPDATE` after the arm sequence: the pulse is started, or restarted (spec/41_shaper.md R161). -/
def afterArmSequence (s : State) : State :=
  { s with tov := false, tcnt := s.cfg.loadValue, pin := !s.pin, tie := true, upc := 7#4 }

/-- The arm sequence from address 3, `CLRFLAG` to `ARM`. -/
theorem execAll_armSequence {s : State} (here : AtAddress 3#4 s) (n : Nat) :
    execAll (List.replicate (n + 4) .step) s = execAll (List.replicate n .step) (afterArmSequence s) := by
  refine execAll_steps_advance (u := .clrflag) here rfl whenUop_of_ready rfl rfl rfl fun atLoad => ?_
  refine execAll_steps_advance (u := .load) atLoad rfl whenUop_of_ready rfl rfl rfl fun atToggle => ?_
  refine execAll_steps_advance (u := .toggle) atToggle rfl whenUop_of_ready rfl rfl rfl fun atArm => ?_
  refine execAll_steps_advance (u := .arm) atArm rfl whenUop_of_ready rfl rfl rfl fun _ => ?_
  simp [advance, loadOperand, afterArmSequence, here.upc]

/-- From address 2: the arm sequence runs exactly where the movements are equal, and the transition is recorded. -/
theorem execAll_validate {s : State} {m p : Movement} {c : PhasePair} (here : AtAddress 2#4 s)
    (mov : s.mov = some m.code) (pmov : s.pmov = p.code) (cur : s.cur = some c) :
    execAll (List.replicate (if m = p then 7 else 3) .step) s =
      some (leaveHandler { (if m = p then afterArmSequence s else s) with pmov := m.code, prev := c }) := by
  have next := validate_next_of_ready (here.ready rfl) mov pmov
  by_cases valid : m = p
  · rw [if_pos valid, if_pos valid, execAll_steps_succ (u := .validate) here rfl next, execAll_armSequence]
    · exact execAll_update ⟨here.started, here.busy, rfl⟩ mov cur
    · exact ⟨here.started, here.busy, by simp [valid, here.upc]⟩
  · rw [if_neg valid, if_neg valid, execAll_steps_succ (u := .validate) here rfl next]
    exact execAll_update ⟨here.started, here.busy, by simp [valid, skipTarget]⟩ mov cur

/-- From address 0: the pair is sampled, and its transition from `PREV` decides. -/
theorem execAll_sample {s : State} {m p : Movement} (here : AtAddress 0#4 s) (pmov : s.pmov = p.code)
    (entry : tableRead (transCode s.prev (inPair s)) = m) :
    execAll (List.replicate ((if m = p then 7 else 3) + 2) .step) s =
      some (leaveHandler
        { (if m = p then afterArmSequence s else s) with pmov := m.code, prev := inPair s }) := by
  refine execAll_steps_advance (u := .sample) here rfl whenUop_of_ready rfl rfl rfl fun atLookup => ?_
  refine execAll_steps_advance (u := .lookup) atLookup rfl (fun ready => lookup_of_ready ready rfl) rfl rfl rfl
    fun atValidate => ?_
  rw [execAll_validate atValidate (congrArg (fun e => some (Movement.code e)) entry) pmov rfl]
  by_cases valid : m = p
  · rw [if_pos valid, if_pos valid]; rfl
  · rw [if_neg valid, if_neg valid]; rfl

/-- The movement of the transition that the phase-change handler would sample now. -/
def nextMovement (s : State) : MovementCode := (tableRead (transCode s.prev (inPair s))).code

/-- What a phase-change run leaves, its dispatch and its `STEP`s alone (R190): the pulse started exactly where the
movement equals the previous one, and the transition recorded. -/
def afterPhaseRun (src : PhaseSource) (s : State) : State :=
  leaveHandler
    { (if nextMovement s = s.pmov then afterArmSequence (clearPending src s) else clearPending src s) with
      pmov := nextMovement s, prev := inPair s }

/-- The phase-change handler from its dispatch to `RETI` is R190's function of the state. -/
theorem execAll_phaseRun {src : PhaseSource} {s : State} (started : s.started = true) (idle : s.busy = false)
    (pend : pending src s = true) (legal : s.pmov ≠ 0b10#2) :
    execAll (.takePhase src :: List.replicate (if nextMovement s = s.pmov then 9 else 5) .step) s =
      some (afterPhaseRun src s) := by
  obtain ⟨p, pmov⟩ := exists_code legal
  have atSample : AtAddress 0#4 (enterHandler phaseEntry (clearScratch (clearPending src s))) :=
    ⟨by simpa using started, rfl, rfl⟩
  have pair : inPair (enterHandler phaseEntry (clearScratch (clearPending src s))) = inPair s := by simp [inPair]
  have run := execAll_sample (p := p) atSample (by simpa using pmov) rfl
  have valid : nextMovement s = s.pmov ↔ tableRead (transCode s.prev (inPair s)) = p := by
    rw [nextMovement, pmov, code_inj]
  rw [execAll_cons (takePhase_of_enabled started idle pend)]
  simp only [pair, enterHandler_prev, clearScratch_prev, clearPending_prev] at run
  simp only [valid, afterPhaseRun]
  split_ifs at run ⊢ <;> exact run

/-- What the run leaves in the registers that the next `EDGE` reads. -/
theorem afterPhaseRun_registers (src : PhaseSource) (s : State) :
    (afterPhaseRun src s).pin = (s.pin ^^ decide (nextMovement s = s.pmov)) ∧
      (afterPhaseRun src s).pmov = nextMovement s ∧ (afterPhaseRun src s).prev = inPair s ∧
      inPair (afterPhaseRun src s) = inPair s ∧ (afterPhaseRun src s).busy = false ∧
      (afterPhaseRun src s).pendA = (clearPending src s).pendA ∧
      (afterPhaseRun src s).pendB = (clearPending src s).pendB := by
  by_cases valid : nextMovement s = s.pmov <;> simp [afterPhaseRun, valid, afterArmSequence, inPair]

/-! ### One `EDGE` (spec/30_encoding.md R92) -/

/-- The state after `INPUT a b` (R186). -/
def afterInput (a b : Bool) (s : State) : State :=
  { s with pendA := pendAfter s.pendA s.inA a, pendB := pendAfter s.pendB s.inB b, inA := a, inB := b }

theorem input_of_started {s : State} (started : s.started = true) (a b : Bool) :
    exec (.input a b) s = .next (afterInput a b s) := by
  simp [exec, execInput, started, afterInput]

theorem expandRaw_of_expand {l : Line} {s : State} {is : List Instr} (h : expand l s = some is) :
    expandRaw l s = some is := by
  cases raw : expandRaw l s with
  | none => simp [expand, raw] at h
  | some js =>
    simp only [expand, raw, Option.ite_none_right_eq_some] at h
    exact h.2

/-- `RUNPHASE` inside an `EDGE`: its expansion is the one that O56 gives. -/
theorem expandRunPhase_of_pending {src : PhaseSource} {s : State} (started : s.started = true) (idle : s.busy = false)
    (pend : pending src s = true) (legal : s.pmov ≠ 0b10#2) :
    expandRunPhase src s =
      some (.takePhase src :: List.replicate (if nextMovement s = s.pmov then 9 else 5) .step) :=
  expandRaw_of_expand (runPhaseExpandsToFiveOrNineSteps s src started idle pend legal)

/-- An `EDGE` that expands, with nothing pending before it, makes the one line pending that it runs. -/
theorem expandEdge_some {a b : Bool} {s : State} {is : List Instr} (started : s.started = true)
    (noneA : s.pendA = false) (noneB : s.pendB = false) (h : expandEdge a b s = some is) :
    ∃ src rest, is = .input a b :: rest ∧ expandRunPhase src (afterInput a b s) = some rest ∧
      pending src (afterInput a b s) = true ∧ (clearPending src (afterInput a b s)).pendA = false ∧
      (clearPending src (afterInput a b s)).pendB = false := by
  simp only [expandEdge, input_of_started started a b] at h
  have pendA : (afterInput a b s).pendA = (s.inA != a) := by simp [afterInput, pendAfter, noneA]
  have pendB : (afterInput a b s).pendB = (s.inB != b) := by simp [afterInput, pendAfter, noneB]
  cases changeA : s.inA != a <;> cases changeB : s.inB != b <;> rw [changeA] at h pendA <;> rw [changeB] at h pendB
  case true.false =>
    obtain ⟨rest, run, rfl⟩ := Option.map_eq_some_iff.1 h
    exact ⟨.a, rest, rfl, run, pendA, rfl, pendB⟩
  case false.true =>
    obtain ⟨rest, run, rfl⟩ := Option.map_eq_some_iff.1 h
    exact ⟨.b, rest, rfl, run, pendB, pendA, rfl⟩
  all_goals cases h

/-- What holds before and after each `EDGE` of a program: the hypotheses of O55. -/
structure BetweenEdges (s : State) : Prop where
  inv : BlockInv s
  idle : s.busy = false
  noneA : s.pendA = false
  noneB : s.pendB = false
  seen : s.prev = inPair s

theorem execAll_keeps_inv {is : List Instr} {s t : State} (inv : BlockInv s) (h : execAll is s = some t) :
    BlockInv t := by
  induction is generalizing s with
  | nil => cases h; exact inv
  | cons i is ih =>
    cases next : exec i s with
    | next u =>
      rw [execAll_cons next] at h
      exact ih (exec_keeps_inv inv next) h
    | fault f => simp [execAll, next] at h
    | refused r => simp [execAll, next] at h

/-- One `EDGE` toggles the pin exactly where its movement equals the one before it, and leaves the new pair and
movement for the next (R130). -/
theorem edge_next {a b : Bool} {s t : State} {is : List Instr} (before : BetweenEdges s)
    (expansion : expand (.edge a b) s = some is) (run : execAll is s = some t) :
    BetweenEdges t ∧ t.prev = phasePair a b ∧ t.pmov = (tableRead (transCode s.prev (phasePair a b))).code ∧
      t.pin = (s.pin ^^ decide (t.pmov = s.pmov)) := by
  have inv := execAll_keeps_inv before.inv run
  have started := before.inv.started
  obtain ⟨src, rest, rfl, expanded, pend, clearA, clearB⟩ :=
    expandEdge_some started before.noneA before.noneB (expandRaw_of_expand expansion)
  have legal : (afterInput a b s).pmov ≠ 0b10#2 := before.inv.pmov_legal
  rw [expandRunPhase_of_pending (s := afterInput a b s) started before.idle pend legal] at expanded
  cases expanded
  rw [execAll_cons (input_of_started started a b),
    execAll_phaseRun (s := afterInput a b s) started before.idle pend legal] at run
  cases run
  obtain ⟨pin, pmov, prev, pair, idle, pendA, pendB⟩ := afterPhaseRun_registers src (afterInput a b s)
  exact
    ⟨⟨inv, idle, pendA.trans clearA, pendB.trans clearB, prev.trans pair.symm⟩, prev, pmov, by rw [pin, pmov]; rfl⟩

/-! ### A program of edges (R92, R130) -/

theorem assemble_cons {l : Line} {ls : List Line} {s t : State} {ws : List EventWord}
    (h : assemble (l :: ls) s = some (ws, t)) :
    ∃ is u vs, expand l s = some is ∧ execAll is s = some u ∧ assemble ls u = some (vs, t) := by
  cases expansion : expand l s with
  | none => simp [assemble, expansion] at h
  | some is =>
    cases run : execAll is s with
    | none => simp [assemble, expansion, run] at h
    | some u =>
      simp only [assemble, expansion, run, Option.map_eq_some_iff, Prod.mk.injEq] at h
      obtain ⟨⟨vs, v⟩, rest, -, rfl⟩ := h
      exact ⟨is, u, vs, rfl, run, rest⟩

/-- The parity of a count that goes on from one decision. -/
theorem parity_ite_add (P : Prop) [Decidable P] (n : Nat) :
    decide (((if P then 1 else 0) + n) % 2 = 1) = (decide P ^^ decide (n % 2 = 1)) := by
  by_cases h : P
  · rcases Nat.mod_two_eq_zero_or_one n with even | odd
    · simp [h, even, Nat.add_mod]
    · simp [h, odd, Nat.add_mod]
  · simp [h]

/-- Settles O55: by induction on the levels, each `EDGE` adding its decision to the parity. -/
theorem edgeProgramsLeaveTheParityOfValidatedEdges : Obligations.EdgeProgramsLeaveTheParityOfValidatedEdges := by
  intro levels s t ws inv idle noneA noneB seen program
  have before : BetweenEdges s := ⟨inv, idle, noneA, noneB, seen⟩
  clear inv idle noneA noneB seen
  induction levels generalizing s ws with
  | nil =>
    cases program
    simp [validatedCount]
  | cons level levels ih =>
    obtain ⟨is, u, vs, expansion, run, rest⟩ := assemble_cons program
    obtain ⟨between, prev, pmov, pin⟩ := edge_next before expansion run
    rw [ih u vs rest between, pin, List.map_cons, validatedCount, parity_ite_add, ← pmov, prev, Bool.xor_assoc]

end Sys2Proof.Machine
end

section
/-! PROOFS. Scope: the Shaper's µops (O13 to O17) and their independence of the Decoder (O45), `TICK` (O28), and what
changes the pin along a run: its parity (O41) and its observation (O59). -/

namespace Sys2Proof.Machine

/-! ### The Shaper's µops (spec/41_shaper.md R151 to R155) -/

/-- Settles O13: where it is ready, `CLRFLAG` is its effect. -/
theorem clrflagClearsTheExpiryFlag : Obligations.ClrflagClearsTheExpiryFlag := fun _ ready => whenUop_of_ready ready

/-- Settles O14: where it is ready, `LOAD` is its effect; the parameters carry the range of `P_LOAD_VALUE`. -/
theorem loadSetsTheCount : Obligations.LoadSetsTheCount := fun s =>
  ⟨fun ready => whenUop_of_ready ready, s.cfg.loadValue_le⟩

/-- `TOGGLE` stands at two µROM addresses, one in each handler (R181). -/
theorem toggle_ready {s : State} (started : s.started = true) (busy : s.busy = true)
    (address : s.upc = 5#4 ∨ s.upc = 9#4) : UopReady .toggle s := by
  rcases address with upc | upc
  · exact AtAddress.ready ⟨started, busy, upc⟩ rfl
  · exact AtAddress.ready ⟨started, busy, upc⟩ rfl

/-- Settles O15: `TOGGLE` is ready at both of its addresses. -/
theorem toggleInvertsThePin : Obligations.ToggleInvertsThePin := fun _ started busy address =>
  whenUop_of_ready (toggle_ready started busy address)

/-- Settles O16: where it is ready, `ARM` is its effect. -/
theorem armEnablesTheExpiryInterrupt : Obligations.ArmEnablesTheExpiryInterrupt := fun _ ready =>
  whenUop_of_ready ready

/-- Settles O17: where it is ready, `DISARM` is its effect. -/
theorem disarmMasksTheExpiryInterrupt : Obligations.DisarmMasksTheExpiryInterrupt := fun _ ready =>
  whenUop_of_ready ready

/-- Settles O45: neither the readiness of a Shaper µop nor its effect reads a Decoder register. -/
theorem shaperIgnoresTheDecoder : Obligations.ShaperIgnoresTheDecoder := by
  intro u s t prev pmov cur code mov valid shaper h
  obtain ⟨ready, next⟩ := uop_next h
  have readyToo : UopReady u
      { s with prev := prev, pmov := pmov, cur := cur, code := code, mov := mov, valid := valid } := ready
  cases u
  case clrflag | load | toggle | arm | disarm =>
    subst next
    exact whenUop_of_ready readyToo
  all_goals simp at shaper

/-! ### The event `TICK` (R157) -/

/-- The state after `TICK`. -/
def afterTick (s : State) : State := { s with tcnt := countAfterTick s, tov := tovAfterTick s }

theorem tick_of_started {s : State} (started : s.started = true) : exec .tick s = .next (afterTick s) := by
  simp [exec, execTick, started, afterTick]

theorem afterTick_of_max {s : State} (wraps : s.tcnt = s.cfg.maxCount) :
    afterTick s = { s with tcnt := 0, tov := true } := by
  simp [afterTick, countAfterTick, tovAfterTick, atMax, wraps]

theorem afterTick_of_ne_max {s : State} (counts : s.tcnt ≠ s.cfg.maxCount) :
    afterTick s = { s with tcnt := s.tcnt + 1 } := by
  simp [afterTick, countAfterTick, tovAfterTick, atMax, counts]

/-- Settles O28: the two cases of a tick. -/
theorem tickCountsAndWraps : Obligations.TickCountsAndWraps := by
  intro s started
  rw [tick_of_started started]
  exact ⟨fun wraps => congrArg _ (afterTick_of_max wraps), fun counts => congrArg _ (afterTick_of_ne_max counts)⟩

/-! ### The pin along a run (R30, R160) -/

/-- A second `RESET` has no next state (R241). -/
theorem not_reset_of_started {i : Instr} {s t : State} (started : s.started = true) (h : exec i s = .next t) :
    i ≠ .reset := by
  rintro rfl
  obtain ⟨before, -⟩ := guarded_next h
  simp [started] at before

/-- After `RESET` an instruction inverts the pin exactly if it executes `TOGGLE`, its only other writer (R30, R153). -/
theorem exec_pin {i : Instr} {s t : State} (started : s.started = true) (h : exec i s = .next t) :
    t.pin = (s.pin ^^ decide (executedUop i s = some .toggle)) := by
  cases exec_next h with
  | reset isReset => exact absurd isReset (not_reset_of_started started h)
  | input a b isInput _ eq => simp [eq, isInput, executedUop]
  | tick isTick _ eq => simp [eq, isTick, executedUop]
  | takePhase src isPhase _ _ _ eq => simp [eq, isPhase, executedUop]
  | takeTimer isTimer _ _ _ _ eq => simp [eq, isTimer, executedUop]
  | uop u executed _ run =>
    rw [executed]
    by_cases toggle : u = .toggle
    · subst toggle
      obtain ⟨-, rfl⟩ := uop_next run
      simp
    · simp [(uop_frame run).pin toggle, toggle]

/-- What an instruction executes is fetched by `UPC`, whatever the events to come. -/
theorem executedUop_events (i : Instr) (s : State) (ws : List EventWord) :
    executedUop i { s with events := ws } = executedUop i s := by
  cases i <;> rfl

/-- Of the events only `STEP` executes a µop (R180). -/
theorem eq_step_of_executedUop {i : Instr} {w : EventWord} {s : State} {u : Uop} (decoded : decodeEvent w = .ok i)
    (executed : executedUop i s = some u) : i = .step := by
  rcases event_of_encode (encode_of_decodeEvent decoded) with rfl | ⟨a, b, rfl⟩ | rfl | ⟨src, rfl⟩ | rfl | rfl
  case inr.inr.inr.inr.inr => rfl
  all_goals cases executed

theorem togglesNext_eq {s : State} {w : EventWord} {rest : List EventWord} {i : Instr} (events : s.events = w :: rest)
    (decoded : decodeEvent w = .ok i) : togglesNext s = decide (executedUop i s = some .toggle) := by
  simp [togglesNext, events, decoded]

theorem toggleCount_succ {s t : State} (h : step s = .next t) (k : Nat) :
    toggleCount (k + 1) s = (if togglesNext s then 1 else 0) + toggleCount k t := by
  simp [toggleCount, h]

/-- What a step after `RESET` shows: the pin inverted, by the event `STEP`, exactly if it executes `TOGGLE`. -/
theorem step_shows {s t : State} (started : s.started = true) (h : step s = .next t) :
    t.started = true ∧ t.pin = (s.pin ^^ togglesNext s) ∧
      ∃ o : Observed, (∀ k, observation (k + 1) s = o :: observation k t) ∧
        o.changedBy = if togglesNext s then some .step else none := by
  obtain ⟨w, rest, i, events, decoded, executed⟩ := step_next h
  obtain ⟨-, -, startedT⟩ := exec_keeps_cfg_events executed
  have pin : t.pin = (s.pin ^^ togglesNext s) := by
    have inverted := exec_pin (s := { s with events := rest }) started executed
    rwa [executedUop_events, ← togglesNext_eq events decoded] at inverted
  refine ⟨startedT, pin, observed i s t, observation_succ events decoded executed, ?_⟩
  have notReset := not_reset_of_started (s := { s with events := rest }) started executed
  cases toggles : togglesNext s with
  | false => simp [observed, pulseOut, pin, toggles, notReset]
  | true =>
    have isStep : i = .step := eq_step_of_executedUop decoded (by simpa [togglesNext_eq events decoded] using toggles)
    simp [observed, pulseOut, pin, toggles, isStep]

/-- Settles O41: by induction on the steps, each adding its toggle to the parity. -/
theorem pinIsTheParityOfToggles : Obligations.PinIsTheParityOfToggles := by
  intro k s t started run
  induction k generalizing s with
  | zero =>
    cases run
    simp [toggleCount]
  | succ k ih =>
    obtain ⟨u, first, rest⟩ := runSteps_succ run
    obtain ⟨startedU, pin, -⟩ := step_shows started first
    rw [ih u startedU rest, pin, toggleCount_succ first, parity_ite_add, Bool.decide_eq_true, Bool.xor_assoc]

/-- Settles O59: by induction on the steps, each showing at most its toggle. -/
theorem outputChangesAreTheToggles : Obligations.OutputChangesAreTheToggles := by
  intro k s t started run
  induction k generalizing s with
  | zero => simp [observation, toggleCount]
  | succ k ih =>
    obtain ⟨u, first, rest⟩ := runSteps_succ run
    obtain ⟨startedU, -, o, shown, changedBy⟩ := step_shows started first
    obtain ⟨onlySteps, counted⟩ := ih u startedU rest
    rw [shown, toggleCount_succ first, ← counted]
    have onlyStep : o.changedBy = none ∨ o.changedBy = some .step := by
      rw [changedBy]
      split <;> simp
    refine ⟨List.forall_mem_cons.2 ⟨onlyStep, onlySteps⟩, ?_⟩
    cases toggles : togglesNext s <;> simp [changedBy, toggles, Nat.add_comm]

end Sys2Proof.Machine
end

section
/-! PROOFS. Scope: the timer and its expiry: ticks to expiry (O49) and the load value of the formula (O50), a pending
expiry (O51), the pulse's completion (O52) and its re-trigger (O54). -/

namespace Sys2Proof.Machine

/-! ### Lists of ticks and inputs -/

/-- The events that are no dispatch, no µop and no `RESET`: the timer's and the environment's (R157, R186). -/
def TickOrInput (i : Instr) : Prop := i = .tick ∨ ∃ a b, i = .input a b

/-- A list of events that is enabled throughout runs its first event, then the rest. -/
theorem execAll_cons_some {i : Instr} {is : List Instr} {s t : State} (h : execAll (i :: is) s = some t) :
    ∃ u, exec i s = .next u ∧ execAll is u = some t := by
  cases next : exec i s with
  | next u => exact ⟨u, rfl, by rwa [execAll_cons next] at h⟩
  | fault f => simp [execAll, next] at h
  | refused r => simp [execAll, next] at h

theorem execAll_append_of_some {is : List Instr} {s t : State} (h : execAll is s = some t) (js : List Instr) :
    execAll (is ++ js) s = execAll js t := by
  rw [execAll_append, h, Option.bind_some]

/-- What ticks and inputs leave: the registers that only µops and dispatches write, and an expiry that is pending. -/
structure TimerFrame (s t : State) : Prop where
  started : t.started = s.started
  cfg : t.cfg = s.cfg
  busy : t.busy = s.busy
  pin : t.pin = s.pin
  tie : t.tie = s.tie
  tov : s.tov = true → t.tov = true

theorem TimerFrame.trans {s t u : State} (first : TimerFrame s t) (rest : TimerFrame t u) : TimerFrame s u where
  started := rest.started.trans first.started
  cfg := rest.cfg.trans first.cfg
  busy := rest.busy.trans first.busy
  pin := rest.pin.trans first.pin
  tie := rest.tie.trans first.tie
  tov pending := rest.tov (first.tov pending)

theorem tickOrInput_frame {i : Instr} {s t : State} (started : s.started = true) (event : TickOrInput i)
    (h : exec i s = .next t) : TimerFrame s t := by
  rcases event with rfl | ⟨a, b, rfl⟩
  · cases (tick_of_started started).symm.trans h
    exact ⟨rfl, rfl, rfl, rfl, rfl, fun pending => by simp [afterTick, tovAfterTick, pending]⟩
  · cases (input_of_started started a b).symm.trans h
    exact ⟨rfl, rfl, rfl, rfl, rfl, id⟩

theorem execAll_tickOrInput_frame {is : List Instr} {s t : State} (h : execAll is s = some t)
    (started : s.started = true) (events : ∀ i ∈ is, TickOrInput i) : TimerFrame s t := by
  induction is generalizing s with
  | nil =>
    cases h
    exact ⟨rfl, rfl, rfl, rfl, rfl, id⟩
  | cons i is ih =>
    obtain ⟨u, next, rest⟩ := execAll_cons_some h
    rw [List.forall_mem_cons] at events
    have frame := tickOrInput_frame started events.1 next
    exact frame.trans (ih rest (frame.started.trans started) events.2)

/-! ### Ticks to expiry (R158) -/

/-- Too few ticks to wrap the count are counted, and the flag stays as it was. -/
theorem execAll_before_expiry {is : List Instr} {s t : State} (h : execAll is s = some t)
    (started : s.started = true) (events : ∀ i ∈ is, TickOrInput i)
    (early : s.tcnt + is.count .tick ≤ s.cfg.maxCount) : t.tcnt = s.tcnt + is.count .tick ∧ t.tov = s.tov := by
  induction is generalizing s with
  | nil =>
    cases h
    exact ⟨rfl, rfl⟩
  | cons i is ih =>
    obtain ⟨u, next, rest⟩ := execAll_cons_some h
    rw [List.forall_mem_cons] at events
    obtain ⟨rfl | ⟨a, b, rfl⟩, events⟩ := events
    · rw [List.count_cons_self] at early ⊢
      rw [tick_of_started started, afterTick_of_ne_max (by omega)] at next
      cases next
      obtain ⟨count, flag⟩ := ih rest started events (by simp only; omega)
      exact ⟨by simp only at count; omega, flag⟩
    · rw [List.count_cons_of_ne (by simp)] at early ⊢
      cases (input_of_started started a b).symm.trans next
      exact ih (s := afterInput a b s) rest started events early

/-- The tick that the count has no room for wraps it and sets the flag. -/
theorem execAll_expiry {is : List Instr} {s t : State} (h : execAll is s = some t)
    (started : s.started = true) (events : ∀ i ∈ is, TickOrInput i) (inRange : s.tcnt ≤ s.cfg.maxCount)
    (last : s.tcnt + is.count .tick = s.cfg.maxCount + 1) : t.tcnt = 0 ∧ t.tov = true := by
  induction is generalizing s with
  | nil =>
    rw [List.count_nil] at last
    omega
  | cons i is ih =>
    obtain ⟨u, next, rest⟩ := execAll_cons_some h
    rw [List.forall_mem_cons] at events
    obtain ⟨rfl | ⟨a, b, rfl⟩, events⟩ := events
    · rw [List.count_cons_self] at last
      rw [tick_of_started started] at next
      by_cases wraps : s.tcnt = s.cfg.maxCount
      · have noTick : is.count .tick = 0 := by omega
        rw [afterTick_of_max wraps] at next
        cases next
        have after := execAll_before_expiry rest started events (by simp [noTick])
        simpa [noTick] using after
      · rw [afterTick_of_ne_max wraps] at next
        cases next
        exact ih rest started events (by simp only; omega) (by simp only; omega)
    · rw [List.count_cons_of_ne (by simp)] at last
      cases (input_of_started started a b).symm.trans next
      exact ih rest started events inRange last

/-- Settles O49: the count has room for `P_MAX_COUNT − P_LOAD_VALUE` ticks, and the next one wraps it. -/
theorem ticksToExpiry : Obligations.TicksToExpiry := by
  intro is s t started loaded events run
  have inRange := s.cfg.loadValue_le
  rw [← loaded] at inRange ⊢
  exact ⟨fun early => execAll_before_expiry run started events (by omega),
    fun last => execAll_expiry run started events inRange (by omega)⟩

/-! ### The load value of the formula (R158, R159) -/

/-- `ceil` is the least whole number of ticks that lasts as long (R13). -/
theorem ceilDiv_le_iff {w t : Nat} (positive : 0 < t) (n : Nat) : ceilDiv w t ≤ n ↔ w ≤ n * t := by
  have same : ceilDiv w t = w ⌈/⌉ t := (Nat.ceilDiv_eq_add_pred_div w t).symm
  rw [same, ceilDiv_le_iff_le_mul positive, Nat.mul_comm]

/-- Settles O50: the ticks before the last are `ceil(W / T)`, which is the least number that lasts `W`. -/
theorem loadFormulaNeverNarrowsThePulse : Obligations.LoadFormulaNeverNarrowsThePulse := by
  intro p w t positive formula
  have room : p.maxCount - p.loadValue = ceilDiv w t := by
    rw [loadFormula] at formula
    omega
  have inRange := p.loadValue_le
  rw [room]
  refine ⟨by omega, (ceilDiv_le_iff positive _).1 le_rfl, fun nonzero => ?_⟩
  by_contra lasts
  have fewer := (ceilDiv_le_iff positive _).2 (not_lt.1 lasts)
  have noTicks : ceilDiv w t ≤ 0 := by omega
  have noWidth := (ceilDiv_le_iff positive 0).1 noTicks
  omega

/-! ### A pending expiry and its run (R162, R163, R205) -/

theorem takeTimer_of_enabled {s : State} (started : s.started = true) (idle : s.busy = false) (armed : s.tie = true)
    (expired : s.tov = true) : exec .takeTimer s = .next (enterHandler timerEntry { s with tov := false }) := by
  simp [exec, execTakeTimer, timerEnabled, started, idle, armed, expired]

/-- Settles O51: ticks and inputs keep the four conditions of the dispatch. -/
theorem pendingExpiryStaysEnabled : Obligations.PendingExpiryStaysEnabled := by
  intro is s t started idle armed expired events run
  have frame := execAll_tickOrInput_frame run started events
  exact ⟨_, takeTimer_of_enabled (frame.started.trans started) (frame.busy.trans idle) (frame.tie.trans armed)
    (frame.tov expired), rfl, rfl⟩

/-- What a timer-expiry run leaves, its dispatch and its `STEP`s alone: the pulse is ended (R191). -/
def afterTimerRun (s : State) : State := leaveHandler { s with tov := false, pin := !s.pin, tie := false }

/-- The timer-expiry handler from its dispatch to `RETI`: `TOGGLE`, `DISARM`, and nothing is read first (R191). -/
theorem execAll_timerRun {s : State} (started : s.started = true) (idle : s.busy = false) (armed : s.tie = true)
    (expired : s.tov = true) :
    execAll (.takeTimer :: List.replicate 3 .step) s = some (afterTimerRun s) := by
  have atToggle : AtAddress 9#4 (enterHandler timerEntry { s with tov := false }) := ⟨started, rfl, rfl⟩
  rw [execAll_cons (takeTimer_of_enabled started idle armed expired)]
  refine execAll_steps_advance (u := .toggle) atToggle rfl whenUop_of_ready rfl rfl rfl fun atDisarm => ?_
  refine execAll_steps_advance (u := .disarm) atDisarm rfl whenUop_of_ready rfl rfl rfl fun atReti => ?_
  exact execAll_steps_succ (u := .reti) atReti rfl (whenUop_of_ready (atReti.ready rfl)) 0

/-- Any number of ticks is enabled after `RESET` (R157). -/
theorem execAll_ticks {s : State} (started : s.started = true) (n : Nat) :
    ∃ t, execAll (List.replicate n .tick) s = some t := by
  induction n generalizing s with
  | zero => exact ⟨s, rfl⟩
  | succ n ih =>
    rw [List.replicate_succ, execAll_cons (tick_of_started started)]
    exact ih started

/-- Settles O52: tick until the count wraps; the expiry is then pending, and its run toggles and disarms. -/
theorem armedPulseCanComplete : Obligations.ArmedPulseCanComplete := by
  intro s inv idle armed
  have started := inv.started
  have inRange := inv.count_in_range
  obtain ⟨t, ticks⟩ := execAll_ticks started (s.cfg.maxCount + 1 - s.tcnt)
  have events : ∀ i ∈ List.replicate (s.cfg.maxCount + 1 - s.tcnt) Instr.tick, TickOrInput i :=
    fun _ isTick => .inl (List.eq_of_mem_replicate isTick)
  have frame := execAll_tickOrInput_frame ticks started events
  obtain ⟨-, expired⟩ := execAll_expiry ticks started events inRange (by rw [List.count_replicate_self]; omega)
  have run := execAll_timerRun (frame.started.trans started) (frame.busy.trans idle) (frame.tie.trans armed) expired
  have whole := (execAll_append_of_some ticks _).trans run
  exact ⟨_, afterTimerRun t, Nat.sub_le _ _, whole, congrArg not frame.pin, rfl, rfl⟩

/-! ### The re-trigger (R161) -/

/-- Settles O54: the arm sequence, whose `ARM` finds `TIE` set. -/
theorem retriggerRestartsThePulse : Obligations.RetriggerRestartsThePulse := by
  intro s started busy upc armed
  have run := execAll_armSequence ⟨started, busy, upc⟩ 0
  rwa [afterArmSequence, ← armed] at run

end Sys2Proof.Machine
end

section
/-! PROOFS. Scope: the sequencer in the states of the invariant: the µop it executes (O6, O7), that no fault is
reachable (O37) and that a handler run ends (O42); the step that runs an event (O4), `RETI` (O18) and the µops
elsewhere (O19). -/

namespace Sys2Proof.Machine

/-! ### The step that runs an event (spec/42_sequencing.md R187) -/

theorem step_of_decoded {s : State} {w : EventWord} {rest : List EventWord} {i : Instr} (events : s.events = w :: rest)
    (decoded : decodeEvent w = .ok i) : step s = exec i { s with events := rest } := by
  simp [step, fetchEvent, events, decoded]

/-- Settles O4: an event word is decoded by the event decoder, which the fetch uses. -/
theorem stepRunsTheNextEvent : Obligations.StepRunsTheNextEvent := fun _ _ _ _ events decoded =>
  step_of_decoded events decoded

/-! ### The µops: `RETI`, and where one is not ready (R185; log 12) -/

/-- Settles O18: where it is ready, `RETI` leaves the handler. -/
theorem retiEndsTheHandler : Obligations.RetiEndsTheHandler := fun _ ready => ⟨_, _, whenUop_of_ready ready⟩

/-- Settles O19: every µop's rule begins with its Enabled line. -/
theorem uopsAreRefusedElsewhere : Obligations.UopsAreRefusedElsewhere := by
  intro u s elsewhere
  cases u
  all_goals exact whenUop_of_not_ready elsewhere

/-! ### The µROM element at `UPC` (R180, R181) -/

theorem AtAddress.step {a : Uaddr} {s : State} (here : AtAddress a s) (u : Uop) (element : uromRead a = some u.code) :
    exec .step s = exec u.toInstr s :=
  step_of_ready (here.ready element)

theorem step_of_not_busy {s : State} (started : s.started = true) (idle : s.busy = false) :
    exec .step s = .refused .stepNotEnabled := by
  simp [exec, execStep, started, idle]

/-- The ROM has no element above address 11 (spec/20_memory.md R69). -/
theorem uromRead_above {a : Uaddr} (above : 11 < a.toNat) : uromRead a = none :=
  List.getElem?_eq_none above

theorem step_above_rom {s : State} (started : s.started = true) (busy : s.busy = true) (above : 11 < s.upc.toNat) :
    exec .step s = .fault .upcOutOfRom := by
  simp [exec, execStep, started, busy, fetchUop, uromRead_above above]

/-- Settles O6: address by address, the element of the µROM. -/
theorem sequencerExecutesTheUromElement : Obligations.SequencerExecutesTheUromElement := fun s started =>
  ⟨step_of_not_busy started, fun busy =>
    have here {a : Uaddr} (upc : s.upc = a) : AtAddress a s := ⟨started, busy, upc⟩
    ⟨fun upc => (here upc).step .sample rfl, fun upc => (here upc).step .lookup rfl,
      fun upc => (here upc).step .validate rfl, fun upc => (here upc).step .clrflag rfl,
      fun upc => (here upc).step .load rfl, fun upc => (here upc).step .toggle rfl,
      fun upc => (here upc).step .arm rfl, fun upc => (here upc).step .update rfl,
      fun upc => (here upc).step .reti rfl, fun upc => (here upc).step .toggle rfl,
      fun upc => (here upc).step .disarm rfl, fun upc => (here upc).step .reti rfl,
      step_above_rom started busy⟩⟩

/-! ### A ready µop completes in a state of the invariant (R188)

The invariant says at each address that the scratch registers which the µop there reads are written, and holds `PMOV`
to the movements; so no read of it faults. -/

theorem HandlerAt.address_le {a : Nat} {s : State} (here : HandlerAt a s) : a ≤ 11 := by
  by_contra above
  obtain ⟨n, rfl⟩ : ∃ n, a = n + 12 := ⟨a - 12, by omega⟩
  exact here

theorem LookedUp.reads {s : State} (looked : LookedUp s) :
    ∃ (m : Movement) (c : PhasePair), s.mov = some m.code ∧ s.cur = some c := by
  obtain ⟨c, cur, -, mov⟩ := looked
  exact ⟨_, c, mov, cur⟩

theorem BlockInv.handlerAt_of_ready {u : Uop} {a : Uaddr} {s : State} (inv : BlockInv s) (ready : UopReady u s)
    (upc : s.upc = a) : HandlerAt a.toNat s := by
  obtain ⟨-, busy, -⟩ := ready
  exact upc ▸ inv.handler busy

/-- At `LOOKUP`, `CUR` is sampled. -/
theorem BlockInv.cur_of_lookup {s : State} (inv : BlockInv s) (ready : UopReady .lookup s) : ∃ c, s.cur = some c := by
  have sampled : Sampled s := inv.handlerAt_of_ready (a := 1#4) ready (upc_of_ready ready)
  exact sampled.1

theorem BlockInv.lookedUp_of_validate {s : State} (inv : BlockInv s) (ready : UopReady .validate s) : LookedUp s := by
  have here : LookedUp s ∧ s.valid = none := inv.handlerAt_of_ready (a := 2#4) ready (upc_of_ready ready)
  exact here.1

theorem BlockInv.lookedUp_of_update {s : State} (inv : BlockInv s) (ready : UopReady .update s) : LookedUp s := by
  have here : LookedUp s ∧ _ := inv.handlerAt_of_ready (a := 7#4) ready (upc_of_ready ready)
  exact here.1

theorem BlockInv.uop_completes {u : Uop} {s : State} (inv : BlockInv s) (ready : UopReady u s) :
    ∃ t, exec u.toInstr s = .next t := by
  cases u
  case lookup =>
    obtain ⟨c, cur⟩ := inv.cur_of_lookup ready
    exact ⟨_, lookup_of_ready ready cur⟩
  case validate =>
    obtain ⟨m, -, mov, -⟩ := (inv.lookedUp_of_validate ready).reads
    obtain ⟨p, pmov⟩ := exists_code inv.pmov_legal
    exact ⟨_, validate_next_of_ready ready mov pmov⟩
  case update =>
    obtain ⟨m, c, mov, cur⟩ := (inv.lookedUp_of_update ready).reads
    exact ⟨_, update_next_of_ready ready mov cur⟩
  all_goals exact ⟨_, whenUop_of_ready ready⟩

/-- Every address of the µROM holds a µop's code (spec/20_memory.md R62, R181). -/
theorem exists_element {a : Uaddr} (inRom : a.toNat ≤ 11) : ∃ u : Uop, uromRead a = some u.code := by
  have all : ∀ a : Uaddr, a.toNat ≤ 11 →
      ∃ u ∈ [Uop.sample, .lookup, .validate, .clrflag, .load, .toggle, .arm, .update, .reti, .disarm],
        uromRead a = some u.code := by decide
  obtain ⟨u, -, element⟩ := all a inRom
  exact ⟨u, element⟩

/-- While a handler runs some µop is ready (R37). -/
theorem BlockInv.exists_ready {s : State} (inv : BlockInv s) (busy : s.busy = true) : ∃ u, UopReady u s := by
  obtain ⟨u, element⟩ := exists_element (inv.handler busy).address_le
  exact ⟨u, inv.started, busy, element⟩

/-- Settles O7: some µop is ready, and it completes. -/
theorem stepCompletesWhileAHandlerRuns : Obligations.StepCompletesWhileAHandlerRuns := by
  intro s inv busy
  obtain ⟨u, ready⟩ := inv.exists_ready busy
  obtain ⟨t, next⟩ := inv.uop_completes ready
  exact ⟨u, t, fetchUop_of_ready ready, (step_of_ready ready).trans next, next⟩

/-! ### No fault is reachable (R188) -/

/-- An outcome that is no fault. -/
def NoFault (o : Result) : Prop := ∀ f, o ≠ .fault f

theorem noFault_next (t : State) : NoFault (.next t) := nofun

theorem noFault_refused (r : Refusal) : NoFault (.refused r) := nofun

theorem NoFault.guarded {o : Result} (h : NoFault o) (ok : Bool) (r : Refusal) : NoFault (guarded ok r o) := by
  cases ok
  · exact noFault_refused r
  · exact h

theorem BlockInv.uop_noFault {s : State} (inv : BlockInv s) (u : Uop) : NoFault (exec u.toInstr s) := by
  by_cases ready : UopReady u s
  · obtain ⟨t, next⟩ := inv.uop_completes ready
    exact next ▸ noFault_next t
  · exact uopsAreRefusedElsewhere u s ready ▸ noFault_refused _

theorem BlockInv.step_event_noFault {s : State} (inv : BlockInv s) : NoFault (exec .step s) := by
  cases busy : s.busy with
  | false => exact step_of_not_busy inv.started busy ▸ noFault_refused _
  | true =>
    obtain ⟨u, ready⟩ := inv.exists_ready busy
    exact step_of_ready ready ▸ inv.uop_noFault u

/-- A table entry reads what `LOOKUP` reads (log 13). -/
theorem BlockInv.selectEntry_noFault {s : State} (inv : BlockInv s) (k : TransCode) : NoFault (selectEntry k s) := by
  by_cases ready : UopReady .lookup s
  · obtain ⟨c, cur⟩ := inv.cur_of_lookup ready
    rw [selectEntry_of_ready ready cur]
    exact (noFault_next _).guarded _ _
  · rw [selectEntry, whenUop_of_not_ready ready]
    exact noFault_refused _

/-- The rows of format UOP4 are the ten µops (spec/30_encoding.md R93). -/
theorem uop_of_encode {i : Instr} {c : UopCode} (h : encode i = .uop4 c) : ∃ u : Uop, i = u.toInstr := by
  have decoded := decode_encode i
  rw [h, decode] at decoded
  cases code : decodeUop c with
  | ok u =>
    rw [code] at decoded
    cases decoded
    exact ⟨u, rfl⟩
  | error e =>
    rw [code] at decoded
    cases decoded

/-- No instruction faults, format by format: of the events only `STEP` reads what could be unwritten. -/
theorem BlockInv.exec_noFault {s : State} (inv : BlockInv s) (i : Instr) : NoFault (exec i s) := by
  cases word : encode i with
  | ev8 w =>
    rcases event_of_encode word with rfl | ⟨a, b, rfl⟩ | rfl | ⟨src, rfl⟩ | rfl | rfl
    · exact (noFault_next _).guarded _ _
    · exact (noFault_next _).guarded _ _
    · exact (noFault_next _).guarded _ _
    · exact ((noFault_next _).guarded _ _).guarded _ _
    · exact ((noFault_next _).guarded _ _).guarded _ _
    · exact inv.step_event_noFault
  | uop4 c =>
    obtain ⟨u, rfl⟩ := uop_of_encode word
    exact inv.uop_noFault u
  | tc4 k =>
    rw [exec_of_encode_tc4 word]
    exact inv.selectEntry_noFault k

theorem BlockInv.placeRun {s : State} (inv : BlockInv s) (ws : List EventWord) : BlockInv (placeRun ws s) :=
  inv.of_other_registers s.pin s.tov s.pendA s.pendB s.inA s.inB ws inv.count_in_range

theorem BlockInv.step_noFault {s : State} (inv : BlockInv s) : NoFault (step s) := by
  cases events : s.events with
  | nil => exact step_of_no_events events ▸ noFault_refused _
  | cons w rest =>
    cases decoded : decodeEvent w with
    | ok i => exact step_of_decoded events decoded ▸ (inv.placeRun rest).exec_noFault i
    | error e => exact step_of_reserved events decoded ▸ noFault_refused _

/-- Along a run the invariant is kept, so that no step of it faults. -/
theorem BlockInv.runSteps_noFault {s : State} (inv : BlockInv s) (k : Nat) : NoFault (runSteps k s) := by
  induction k generalizing s with
  | zero => exact noFault_next s
  | succ k ih =>
    rw [runSteps]
    cases first : step s with
    | next u => exact ih (everyStepKeepsTheInvariant s u inv first)
    | fault f => exact absurd first (inv.step_noFault f)
    | refused r => exact noFault_refused r

/-- Settles O37: a single instruction by its format, a run by induction on its steps. -/
theorem noFaultIsReachable : Obligations.NoFaultIsReachable := fun _ inv =>
  ⟨inv.exec_noFault, inv.runSteps_noFault⟩

/-! ### A handler run ends (R182) -/

theorem stepsLeft_of_idle {s : State} (idle : s.busy = false) : stepsLeft s = 0 := by simp [stepsLeft, idle]

theorem stepsLeft_of_busy {s : State} (busy : s.busy = true) :
    stepsLeft s = if s.upc.toNat ≤ 8 then 9 - s.upc.toNat else 12 - s.upc.toNat := by
  rw [stepsLeft, if_pos busy]

/-- The count reads `BUSY` and `UPC` alone. -/
theorem stepsLeft_congr {s t : State} (busy : t.busy = s.busy) (upc : t.upc = s.upc) : stepsLeft t = stepsLeft s := by
  rw [stepsLeft, busy, upc, stepsLeft]

theorem BlockInv.stepsLeft_pos {s : State} (inv : BlockInv s) (busy : s.busy = true) : 0 < stepsLeft s := by
  have inRom := (inv.handler busy).address_le
  rw [stepsLeft_of_busy busy]
  split <;> omega

/-- A µop other than `RETI` goes on to a later address of the same handler: the next one, or `VALIDATE`'s skip. -/
theorem uop_upc {u : Uop} {s t : State} (notReti : u ≠ .reti) (h : exec u.toInstr s = .next t) :
    s.upc.toNat < t.upc.toNat ∧ (t.upc.toNat ≤ 8 ↔ s.upc.toNat ≤ 8) ∧ t.upc.toNat ≤ 11 := by
  obtain ⟨ready, next⟩ := uop_next h
  have upc := upc_of_ready ready
  cases u
  case lookup =>
    obtain ⟨c, -, rfl⟩ := next
    simp [upc]
  case validate =>
    obtain ⟨m, p, -, -, rfl⟩ := next
    by_cases valid : m = p <;> simp [upc, valid]
  case update =>
    obtain ⟨m, c, -, -, rfl⟩ := next
    simp [upc]
  case toggle =>
    subst next
    rcases upc with upc | upc <;> simp [upc]
  case reti => exact absurd rfl notReti
  all_goals
    subst next
    simp [upc]

/-- Every `STEP` leaves fewer: `RETI` none, and any other µop goes on inside its handler. -/
theorem BlockInv.step_stepsLeft {s t : State} (inv : BlockInv s) (h : exec .step s = .next t) :
    stepsLeft t < stepsLeft s := by
  obtain ⟨-, busy, u, -, run⟩ := execStep_next h
  by_cases reti : u = .reti
  · subst reti
    obtain ⟨-, rfl⟩ := uop_next run
    rw [stepsLeft_of_idle (leaveHandler_busy s)]
    exact inv.stepsLeft_pos busy
  · obtain ⟨later, sameHandler, inRom⟩ := uop_upc reti run
    rw [stepsLeft_of_busy busy, stepsLeft_of_busy (((uop_frame run).busy reti).trans busy)]
    simp only [sameHandler]
    split <;> omega

theorem BlockInv.stepsLeft_eq_zero_iff {s : State} (inv : BlockInv s) : stepsLeft s = 0 ↔ s.busy = false := by
  refine ⟨fun none => ?_, stepsLeft_of_idle⟩
  by_contra busy
  exact (inv.stepsLeft_pos (by simpa using busy)).ne' none

theorem takePhase_next {src : PhaseSource} {s t : State} (h : exec (.takePhase src) s = .next t) :
    t = enterHandler phaseEntry (clearScratch (clearPending src s)) := by
  obtain ⟨-, h⟩ := guarded_next h
  obtain ⟨-, h⟩ := guarded_next h
  cases h
  rfl

theorem takeTimer_next {s t : State} (h : exec .takeTimer s = .next t) :
    t = enterHandler timerEntry { s with tov := false } := by
  obtain ⟨-, h⟩ := guarded_next h
  obtain ⟨-, h⟩ := guarded_next h
  cases h
  rfl

/-- `TICK` and `INPUT` write neither `BUSY` nor `UPC` (R182). -/
theorem tickOrInput_stepsLeft {i : Instr} {s t : State} (event : TickOrInput i) (h : exec i s = .next t) :
    stepsLeft t = stepsLeft s := by
  rcases event with rfl | ⟨a, b, rfl⟩
  · obtain ⟨-, h⟩ := guarded_next h
    cases h
    exact stepsLeft_congr rfl rfl
  · obtain ⟨-, h⟩ := guarded_next h
    cases h
    exact stepsLeft_congr rfl rfl

/-- Settles O42: the count at each entry, at each `STEP` and at the events between. -/
theorem handlerRunsEndWithinNineSteps : Obligations.HandlerRunsEndWithinNineSteps :=
  ⟨fun _ _ _ h => takePhase_next h ▸ stepsLeft_of_busy (enterHandler_busy _ _),
    fun _ _ h => takeTimer_next h ▸ stepsLeft_of_busy (enterHandler_busy _ _),
    fun _ _ inv h => inv.step_stepsLeft h, fun _ _ _ event h => tickOrInput_stepsLeft event h,
    fun _ inv => inv.stepsLeft_eq_zero_iff⟩

end Sys2Proof.Machine
end

section
/-! PROOFS. Scope: the handler runs as atomic functions (O47, O48), the pending flags that `INPUT` sets (O27), and the
events of a quiescent state (O44). -/

namespace Sys2Proof.Machine

/-! ### The handler runs (spec/42_sequencing.md R190, R191) -/

theorem afterPhaseRun_of_valid {src : PhaseSource} {s : State} (valid : nextMovement s = s.pmov) :
    afterPhaseRun src s = leaveHandler { afterArmSequence (clearPending src s) with prev := inPair s } := by
  have unchanged : (afterArmSequence (clearPending src s)).pmov = nextMovement s :=
    (clearPending_pmov src s).trans valid.symm
  rw [afterPhaseRun, if_pos valid, ← unchanged]

theorem afterPhaseRun_of_invalid {src : PhaseSource} {s : State} (invalid : nextMovement s ≠ s.pmov) :
    afterPhaseRun src s = leaveHandler { clearPending src s with pmov := nextMovement s, prev := inPair s } := by
  rw [afterPhaseRun, if_neg invalid]

/-- Where no handler runs any more, leaving it writes the scratch registers, `UPC` and the model's counter alone. -/
theorem leaveHandler_of_idle {s : State} (idle : s.busy = false) :
    leaveHandler s =
      { s with
        cur := none, code := none, mov := none, valid := none, upc := Config.freeUpc s.drawIndex
        drawIndex := s.drawIndex + 1 } := by
  rw [leaveHandler, ← idle]
  rfl

/-- Settles O47: the run is `afterPhaseRun`, in both of its cases. -/
theorem phaseHandlerComposite : Obligations.PhaseHandlerComposite := by
  intro s src started idle pend legal
  have run := execAll_phaseRun started idle pend legal
  have stillIdle : (clearPending src s).busy = false := (clearPending_busy src s).trans idle
  have loaded : (clearPending src s).cfg.loadValue = s.cfg.loadValue := by rw [clearPending_cfg]
  refine ⟨fun valid => ?_, fun invalid => ?_⟩
  · rw [if_pos (show nextMovement s = s.pmov from valid), afterPhaseRun_of_valid valid] at run
    have whole := run.trans (congrArg some (leaveHandler_of_idle stillIdle))
    simp only [afterArmSequence, clearPending_pin, loaded] at whole
    exact ⟨_, _, whole⟩
  · rw [if_neg (show nextMovement s ≠ s.pmov from invalid), afterPhaseRun_of_invalid invalid] at run
    exact ⟨_, _, run.trans (congrArg some (leaveHandler_of_idle stillIdle))⟩

/-- Settles O48: the run is `afterTimerRun`. -/
theorem timerHandlerComposite : Obligations.TimerHandlerComposite := fun _ started idle armed expired =>
  ⟨_, _, (execAll_timerRun started idle armed expired).trans (congrArg some (leaveHandler_of_idle idle))⟩

/-! ### The event `INPUT` (R186) -/

theorem pendAfter_of_change {old new : Bool} (change : new ≠ old) (pend : Bool) : pendAfter pend old new = true := by
  simp [pendAfter, change.symm]

theorem pendAfter_of_same {old new : Bool} (same : new = old) (pend : Bool) : pendAfter pend old new = pend := by
  simp [pendAfter, same]

/-- Settles O27: each line's flag by itself. -/
theorem inputSetsPendingOnEdges : Obligations.InputSetsPendingOnEdges := fun _ a b started =>
  ⟨_, _, input_of_started started a b, fun change => pendAfter_of_change change _,
    fun same => pendAfter_of_same same _, fun change => pendAfter_of_change change _, fun same => pendAfter_of_same same _⟩

/-! ### Quiescence (R189) -/

theorem quiescent_iff {s : State} :
    quiescent s = true ↔
      s.busy = false ∧ s.pendA = false ∧ s.pendB = false ∧ (s.tie = false ∨ s.tov = false) := by
  simp [quiescent, and_assoc]

/-- Settles O44: a dispatch or a µop would contradict one conjunct of quiescence. -/
theorem quiescentEnablesOnlyInputAndTick : Obligations.QuiescentEnablesOnlyInputAndTick := by
  intro s started quiet i
  obtain ⟨idle, noneA, noneB, noExpiry⟩ := quiescent_iff.1 quiet
  constructor
  · rintro ⟨t, h⟩
    cases exec_next h with
    | reset isReset => exact absurd isReset (not_reset_of_started started h)
    | input a b isInput => exact .inr ⟨a, b, isInput⟩
    | tick isTick => exact .inl isTick
    | takePhase src _ _ _ pend => cases src <;> simp [pending, noneA, noneB] at pend
    | takeTimer _ _ _ armed expired => simp [armed, expired] at noExpiry
    | uop u _ ready =>
      obtain ⟨-, busy, -⟩ := ready
      exact absurd busy (by simp [idle])
  · rintro (rfl | ⟨a, b, rfl⟩)
    · exact ⟨_, tick_of_started started⟩
    · exact ⟨_, input_of_started started a b⟩

end Sys2Proof.Machine
end

section
/-! PROOFS. Scope: the observation of a run, entry by entry (O58), and infinite runs with what they show (O60). -/

namespace Sys2Proof.Machine

/-! ### The observation of a finite run (spec/42_sequencing.md R189) -/

theorem runSteps_of_step {s u : State} (first : step s = .next u) (k : Nat) : runSteps (k + 1) s = runSteps k u := by
  simp [runSteps, first]

/-- What entry `j` of a run's observation has to be: the `PIN` trace at step `j + 1`, with the event that changed it. -/
def TraceEntry (s : State) (j : Nat) (o : Option Observed) : Prop :=
  ∃ (w : EventWord) (i : Instr) (u v : State),
    runSteps j s = .next u ∧ runSteps (j + 1) s = .next v ∧ s.events[j]? = some w ∧ decodeEvent w = .ok i ∧
      o = some ⟨v.pin, if i = .reset ∨ v.pin ≠ u.pin then some i else none⟩

/-- An entry of the run from the next state is the entry after it of the whole run. -/
theorem TraceEntry.succ {s u : State} {j : Nat} {o : Option Observed} (first : step s = .next u)
    (events : u.events = s.events.tail) (entry : TraceEntry u j o) : TraceEntry s (j + 1) o := by
  obtain ⟨w, i, v, v', before, after, word, decoded, shown⟩ := entry
  refine ⟨w, i, v, v', ?_, ?_, ?_, decoded, shown⟩
  · rw [runSteps_of_step first, before]
  · rw [runSteps_of_step first, after]
  · rw [← word, events, List.getElem?_tail]

/-- Settles O58: by induction on the steps, the first entry by the step's own event. -/
theorem observationIsThePinTrace : Obligations.ObservationIsThePinTrace := by
  suffices trace : ∀ (k : Nat) (s t : State), runSteps k s = .next t →
      (observation k s).length = k ∧ ∀ j, j < k → TraceEntry s j (observation k s)[j]? from trace
  intro k s t run
  induction k generalizing s with
  | zero => exact ⟨rfl, nofun⟩
  | succ k ih =>
    obtain ⟨u, first, rest⟩ := runSteps_succ run
    obtain ⟨w, ws, i, events, decoded, executed⟩ := step_next first
    obtain ⟨-, eventsU, -⟩ := exec_keeps_cfg_events executed
    obtain ⟨length, entries⟩ := ih u rest
    rw [observation_succ events decoded executed]
    refine ⟨by rw [List.length_cons, length], fun j inRun => ?_⟩
    cases j with
    | zero => exact ⟨w, i, s, u, rfl, runSteps_of_step first 0, by simp [events], decoded, rfl⟩
    | succ j =>
      rw [List.getElem?_cons_succ]
      exact (entries j (Nat.lt_of_succ_lt_succ inRun)).succ first (by simp [eventsU, events])

/-! ### Infinite runs -/

/-- The event words after the first. -/
def laterEvents (es : Nat → EventWord) : Nat → EventWord := fun n => es (n + 1)

theorem firstEvents_succ (es : Nat → EventWord) (n : Nat) :
    firstEvents es (n + 1) = es 0 :: firstEvents (laterEvents es) n := by
  simp [firstEvents, List.range_succ_eq_map, laterEvents]

/-- An infinite run is its first event's step and an infinite run from there. -/
theorem infiniteRun_iff {es : Nat → EventWord} {s : State} :
    InfiniteRun es s ↔
      ∃ i t, decodeEvent (es 0) = .ok i ∧ exec i s = .next t ∧ InfiniteRun (laterEvents es) t := by
  constructor
  · intro runs
    have parts (n : Nat) := finiteRun_cons.1 (firstEvents_succ es n ▸ runs (n + 1))
    obtain ⟨i, t, decoded, next, -⟩ := parts 0
    refine ⟨i, t, decoded, next, fun n => ?_⟩
    obtain ⟨i', t', decoded', next', rest⟩ := parts n
    cases decoded.symm.trans decoded'
    cases next.symm.trans next'
    exact rest
  · rintro ⟨i, t, decoded, next, rest⟩ n
    cases n with
    | zero => exact ⟨_, rfl⟩
    | succ n => exact firstEvents_succ es n ▸ finiteRun_cons.2 ⟨i, t, decoded, next, rest n⟩

/-! ### Every finite run goes on -/

/-- A finite run's event words, then `TICK` for ever. -/
def thenTicks (ws : List EventWord) : Nat → EventWord := fun n => ws.getD n 0x20#8

theorem firstEvents_thenTicks (ws : List EventWord) : firstEvents (thenTicks ws) ws.length = ws := by
  induction ws with
  | nil => rfl
  | cons w ws ih =>
    rw [List.length_cons, firstEvents_succ]
    exact congrArg (w :: ·) ih

/-- `TICK` is enabled in every state after `RESET` and leaves another such state. -/
theorem infiniteRun_ticks {s : State} (started : s.started = true) : InfiniteRun (thenTicks []) s := by
  intro n
  induction n generalizing s with
  | zero => exact ⟨_, rfl⟩
  | succ n ih =>
    rw [firstEvents_succ]
    exact finiteRun_cons.2 ⟨.tick, afterTick s, rfl, tick_of_started started, ih started⟩

/-- After its first event a run is started, so that ticks can follow it. -/
theorem infiniteRun_thenTicks {ws : List EventWord} {s : State} (hasReset : s.started = true ∨ ws ≠ [])
    (run : FiniteRun ws s) : InfiniteRun (thenTicks ws) s := by
  induction ws generalizing s with
  | nil => exact infiniteRun_ticks (hasReset.resolve_right (fun nonempty => nonempty rfl))
  | cons w ws ih =>
    obtain ⟨i, t, decoded, next, rest⟩ := finiteRun_cons.1 run
    obtain ⟨-, -, started⟩ := exec_keeps_cfg_events next
    exact infiniteRun_iff.2 ⟨i, t, decoded, next, ih (.inl started) rest⟩

/-! ### What an infinite run shows -/

/-- A part of an infinite run shows its first event, then what the rest of the part shows. -/
theorem observation_firstEvents {es : Nat → EventWord} {i : Instr} {s t : State} (decoded : decodeEvent (es 0) = .ok i)
    (next : exec i s = .next t) (n : Nat) :
    observation (n + 1) (placeRun (firstEvents es (n + 1)) s) =
      observed i s t :: observation n (placeRun (firstEvents (laterEvents es) n) t) := by
  have executed : exec i (placeRun (firstEvents (laterEvents es) n) s) =
      .next (placeRun (firstEvents (laterEvents es) n) t) := by
    rw [exec_placeRun, next]
    rfl
  rw [firstEvents_succ]
  exact observation_succ (placeRun_events _ s) decoded executed n

/-- What step `k` of an infinite run shows is what every part shows that is long enough. -/
theorem infiniteRun_shows {es : Nat → EventWord} {s : State} (runs : InfiniteRun es s) (k : Nat) :
    ∃ o, ∀ n, k < n → (observation n (placeRun (firstEvents es n) s))[k]? = some o := by
  induction k generalizing es s with
  | zero =>
    obtain ⟨i, t, decoded, next, -⟩ := infiniteRun_iff.1 runs
    refine ⟨observed i s t, fun n long => ?_⟩
    obtain ⟨n, rfl⟩ := Nat.exists_eq_succ_of_ne_zero long.ne'
    rw [observation_firstEvents decoded next, List.getElem?_cons_zero]
  | succ k ih =>
    obtain ⟨i, t, decoded, next, later⟩ := infiniteRun_iff.1 runs
    obtain ⟨o, shown⟩ := ih later
    refine ⟨o, fun n long => ?_⟩
    obtain ⟨n, rfl⟩ := Nat.exists_eq_succ_of_ne_zero (Nat.ne_zero_of_lt long)
    rw [observation_firstEvents decoded next, List.getElem?_cons_succ]
    exact shown n (Nat.lt_of_succ_lt_succ long)

/-- Settles O60: ticks go on after any run, and an infinite run is observed step by step. -/
theorem everyRunGoesOn : Obligations.EveryRunGoesOn := by
  refine ⟨fun ws s hasReset run => ?_, fun es s runs n k long => ?_⟩
  · exact ⟨thenTicks ws, infiniteRun_thenTicks hasReset run, firstEvents_thenTicks ws⟩
  · obtain ⟨o, shown⟩ := infiniteRun_shows runs k
    have atStep : observationAt es s k = some o := shown (k + 1) k.lt_succ_self
    exact ⟨by rw [atStep]; rfl, (shown n long).trans atStep.symm⟩

end Sys2Proof.Machine
end

section
/-! PROOFS. Scope: the two dispatches, where they are enabled and where not (O29, O30), and what happens while a handler
runs (O32). -/

namespace Sys2Proof.Machine

/-! ### A dispatch that is not enabled (spec/60_exceptions.md R204, R205) -/

theorem phaseEnabled_eq_false_iff {src : PhaseSource} {s : State} :
    phaseEnabled src s = false ↔ s.busy = true ∨ pending src s = false := by
  simp only [phaseEnabled, Bool.and_eq_false_iff, Bool.not_eq_false']

theorem timerEnabled_eq_false_iff {s : State} :
    timerEnabled s = false ↔ s.busy = true ∨ s.tie = false ∨ s.tov = false := by
  simp only [timerEnabled, Bool.and_eq_false_iff, Bool.not_eq_false', or_assoc]

theorem takePhase_refused {src : PhaseSource} {s : State} (started : s.started = true)
    (disabled : s.busy = true ∨ pending src s = false) :
    exec (.takePhase src) s = .refused .phaseNotEnabled := by
  have off : phaseEnabled src s = false := phaseEnabled_eq_false_iff.2 disabled
  simp [exec, execTakePhase, started, off]

theorem takeTimer_refused {s : State} (started : s.started = true)
    (disabled : s.busy = true ∨ s.tie = false ∨ s.tov = false) : exec .takeTimer s = .refused .timerNotEnabled := by
  have off : timerEnabled s = false := timerEnabled_eq_false_iff.2 disabled
  simp [exec, execTakeTimer, started, off]

/-! ### The two dispatches, enabled or not -/

/-- Settles O29: for each source the entry where it is enabled, the refusal where not. -/
theorem takePhaseEntersTheHandler : Obligations.TakePhaseEntersTheHandler := fun _ started =>
  ⟨takePhase_of_enabled (src := .a) started, takePhase_of_enabled (src := .b) started,
    takePhase_refused (src := .a) started, takePhase_refused (src := .b) started⟩

/-- Settles O30: the entry where the timer's dispatch is enabled, the refusal where not. -/
theorem takeTimerEntersTheHandler : Obligations.TakeTimerEntersTheHandler := fun _ started =>
  ⟨takeTimer_of_enabled started, takeTimer_refused started⟩

/-! ### While a handler runs (R207) -/

/-- Settles O32: `BUSY` alone disables both dispatches, and neither `TICK` nor `INPUT` reads or writes it. -/
theorem handlersAreNotPreempted : Obligations.HandlersAreNotPreempted := fun _ started busy =>
  ⟨fun _ => takePhase_refused started (.inl busy), takeTimer_refused started (.inl busy),
    ⟨_, tick_of_started started, busy, rfl⟩, fun a b => ⟨_, input_of_started started a b, busy, rfl⟩⟩

end Sys2Proof.Machine
end

section
/-! PROOFS. Scope: the event `RESET`, its effect (O25), the invariant that it establishes (O36) and its refusal later in
a run (O26); the stale-expiry window between `CLRFLAG` and `LOAD` (O53). -/

namespace Sys2Proof.Machine

/-! ### The event `RESET` (spec/70_reset_and_hazards.md R240, R241) -/

theorem reset_of_not_started {s : State} (before : s.started = false) :
    exec .reset s = .next (resetWith (resetDraws s) s) := by
  simp [exec, execReset, before]

theorem reset_refused {s : State} (started : s.started = true) : exec .reset s = .refused .secondReset :=
  guarded_refused (congrArg not started) _ _

/-- The drawn count is in `0..P_MAX_COUNT` (spec/10_state.md R45). -/
theorem resetDraws_count_le (s : State) : (resetDraws s).t ≤ s.cfg.maxCount :=
  Nat.le_of_lt_succ (Nat.mod_lt _ s.cfg.maxCount.succ_pos)

/-- The invariant asks of the draws only the range of the count (R33). -/
theorem resetWith_inv {d : ResetDraws} {s : State} (count : d.t ≤ s.cfg.maxCount) : BlockInv (resetWith d s) where
  started := rfl
  pmov_legal := code_ne_bad s.cfg.initPrevMovement
  count_in_range := count
  handler := nofun
  idle _ := ⟨rfl, rfl, rfl, rfl⟩

/-- Settles O36: `RESET` leaves `resetWith` of draws that are in range. -/
theorem resetEstablishesTheInvariant : Obligations.ResetEstablishesTheInvariant := by
  intro s t before h
  cases (reset_of_not_started before).symm.trans h
  exact resetWith_inv (resetDraws_count_le s)

/-- Settles O25: the registers are those of `resetWith`, the free values those of `resetDraws` and `UPC`'s. -/
theorem resetInitialisesTheBlock : Obligations.ResetInitialisesTheBlock := fun s before =>
  ⟨_, _, _, _, _, _, resetDraws_count_le s, reset_of_not_started before⟩

/-- Settles O26: whatever event answered, the run has started. -/
theorem secondResetIsRefused : Obligations.SecondResetIsRefused := by
  intro s t i h
  obtain ⟨-, -, started⟩ := exec_keeps_cfg_events h
  exact reset_refused started

/-! ### The stale-expiry window (spec/70_reset_and_hazards.md R250) -/

/-- The state at `UPDATE` after the arm sequence from `LOAD` on: past `CLRFLAG`, `TOV` stays as it was. -/
def afterLoadSequence (s : State) : State :=
  { s with tcnt := s.cfg.loadValue, pin := !s.pin, tie := true, upc := 7#4 }

/-- The arm sequence from address 4, `LOAD` to `ARM`. -/
theorem execAll_loadSequence {s : State} (here : AtAddress 4#4 s) (n : Nat) :
    execAll (List.replicate (n + 3) .step) s = execAll (List.replicate n .step) (afterLoadSequence s) := by
  refine execAll_steps_advance (u := .load) here rfl whenUop_of_ready rfl rfl rfl fun atToggle => ?_
  refine execAll_steps_advance (u := .toggle) atToggle rfl whenUop_of_ready rfl rfl rfl fun atArm => ?_
  refine execAll_steps_advance (u := .arm) atArm rfl whenUop_of_ready rfl rfl rfl fun _ => ?_
  simp [advance, loadOperand, afterLoadSequence, here.upc]

/-- At `LOAD` the handler has looked its transition up. -/
theorem BlockInv.lookedUp_of_load {s : State} (inv : BlockInv s) (ready : UopReady .load s) : LookedUp s := by
  have here : LookedUp s ∧ _ := inv.handlerAt_of_ready (a := 4#4) ready (upc_of_ready ready)
  exact here.1

/-- From `LOAD` the handler runs to its end, and `TOV` is what it was there. -/
theorem BlockInv.execAll_load {s : State} (inv : BlockInv s) (here : AtAddress 4#4 s) :
    ∃ (m : Movement) (c : PhasePair), execAll (List.replicate 5 .step) s =
      some (leaveHandler { afterLoadSequence s with pmov := m.code, prev := c }) := by
  obtain ⟨m, c, mov, cur⟩ := (inv.lookedUp_of_load (here.ready rfl)).reads
  have atUpdate : AtAddress 7#4 (afterLoadSequence s) := ⟨here.started, here.busy, rfl⟩
  exact ⟨m, c, (execAll_loadSequence here 2).trans (execAll_update atUpdate mov cur)⟩

/-- Settles O53: the tick sets `TOV` after `CLRFLAG` has cleared it, `ARM` enables the expiry, and the handler leaves
both as they are; so the timer's dispatch is enabled right after `RETI`. -/
theorem staleExpiryWindow : Obligations.StaleExpiryWindow := by
  intro s inv busy upc wraps
  have tick := tick_of_started inv.started
  have expired : (afterTick s).tov = true := by rw [afterTick_of_max wraps]
  obtain ⟨m, c, run⟩ := (exec_keeps_inv inv tick).execAll_load ⟨inv.started, busy, upc⟩
  have window := (execAll_cons tick).trans run
  have stale := execAll_timerRun (s := leaveHandler { afterLoadSequence (afterTick s) with pmov := m.code, prev := c })
    inv.started rfl rfl expired
  exact ⟨_, _, window, rfl, rfl, expired, rfl, rfl, stale, Bool.not_not s.pin, rfl⟩

end Sys2Proof.Machine
end
